-- ==== Sys2Proof/Word.lean ====
section
/-! DEFINITION. The word and register-index types of the FXU (00_scope R5, R10; 30_encoding R80, R82). -/

namespace Sys2Proof

/-- A 32-bit pattern: a command word, a register's content, a CSR value (10_state R30, 20_memory R58). -/
abbrev Word := BitVec 32

/-- A register field: a 4-bit unsigned register index, every value legal (30_encoding R82). -/
abbrev RegIdx := BitVec 4

end Sys2Proof
end

