-- ==== Sys2Proof/Config.lean ====
section
/-! DEFINITION. What is fixed for this hardware (00_scope R8) and the one free value of the model. -/

namespace Sys2Proof.Config

/-- FB, the fractional bits of a Scalar (R8). -/
@[simp] abbrev fracBits : Nat := 10

/-- ONE, the raw of 1.0 (R8). -/
@[simp] abbrev one : Int := 1024

/-- S = FB - P, the sub-resolution bits of an angle with P = 2 (R7, R8). -/
@[simp] abbrev subBits : Nat := 8

/-- NQ, the last index of the quarter-cosine table with P = 2 (R8). -/
@[simp] abbrev lastQuarter : Nat := 360

/-- CORDIC_N, the CORDIC iterations (R8). -/
@[simp] abbrev cordicSteps : Nat := 12

/-- SQRT_CAP, the Newton iteration cap (R8; 92_eei_decisions D27). -/
@[simp] abbrev sqrtCap : Nat := 32

/-- LOG2_STEPS, the bit-extraction steps of the logarithm (R8). -/
@[simp] abbrev logSteps : Nat := 10

/-- FREE VALUE (log entry 2). The content a RESET leaves in one of `x1` to `x15`: 10_state R42 gives none and says
that a model must never pick one. Draw number `n` is `unspecifiedWord n`; it has no body, so nothing can be proved
about its value. -/
opaque unspecifiedWord : Nat → Word

end Sys2Proof.Config
end

