-- ==== Sys2Proof/Syntax.lean ====
section
/-! DEFINITION. The instructions: one constructor per row of opcode_table.json (30_encoding R84). -/

namespace Sys2Proof

/-- The 41 instructions of FXU32-Q10-v1, with the fields their format uses (30_encoding R81, R84). The
pseudo-instructions NOP, MOV, NEG and CLR (R88) are words of `add` and `sub`. -/
inductive Instr where
  /-- ADD: wrapping sum of two Scalars (R100). -/
  | add (rd rs1 rs2 : RegIdx)
  /-- SUB: wrapping difference of two Scalars (R101). -/
  | sub (rd rs1 rs2 : RegIdx)
  /-- MUL: rounded Scalar product (R102). -/
  | mul (rd rs1 rs2 : RegIdx)
  /-- DIV: Scalar quotient (R103). -/
  | div (rd rs1 rs2 : RegIdx)
  /-- MOD: Scalar remainder, sign of the dividend (R104). -/
  | mod (rd rs1 rs2 : RegIdx)
  /-- SHL: left shift of the raw by a count (R105). -/
  | shl (rd rs1 rs2 : RegIdx)
  /-- SHR: arithmetic right shift of the raw by a count (R106). -/
  | shr (rd rs1 rs2 : RegIdx)
  /-- CMPEQ: equal (R107). -/
  | cmpeq (rd rs1 rs2 : RegIdx)
  /-- CMPNE: not equal (R108). -/
  | cmpne (rd rs1 rs2 : RegIdx)
  /-- CMPLT: signed less (R109). -/
  | cmplt (rd rs1 rs2 : RegIdx)
  /-- CMPLE: signed less or equal (R110). -/
  | cmple (rd rs1 rs2 : RegIdx)
  /-- CMPGT: signed greater (R111). -/
  | cmpgt (rd rs1 rs2 : RegIdx)
  /-- CMPGE: signed greater or equal (R112). -/
  | cmpge (rd rs1 rs2 : RegIdx)
  /-- FROMINT: integer to Scalar (R113). -/
  | fromint (rd rs1 : RegIdx)
  /-- TOINT: Scalar to integer, floor (R114). -/
  | toint (rd rs1 : RegIdx)
  /-- MIX: integer and fraction to Scalar (R115). -/
  | mix (rd rs1 rs2 rs3 : RegIdx)
  /-- RATIO: numerator over denominator to Scalar (R116). -/
  | ratio (rd rs1 rs2 : RegIdx)
  /-- NARROW: Q32.32 pair to Scalar (R141). -/
  | narrow (rd rs1 rs2 : RegIdx)
  /-- CONST: named constant (R142). -/
  | const (rd : RegIdx) (k : BitVec 8)
  /-- ABS: absolute value (R150). -/
  | abs (rd rs1 : RegIdx)
  /-- SIGN: sign as a Scalar (R151). -/
  | sign (rd rs1 : RegIdx)
  /-- FLOOR: round toward minus infinity (R152). -/
  | floor (rd rs1 : RegIdx)
  /-- CEIL: round toward plus infinity (R153). -/
  | ceil (rd rs1 : RegIdx)
  /-- TRUNC: round toward zero (R154). -/
  | trunc (rd rs1 : RegIdx)
  /-- ROUND: round to nearest, halves up (R155). -/
  | round (rd rs1 : RegIdx)
  /-- MIN: signed minimum (R156). -/
  | min (rd rs1 rs2 : RegIdx)
  /-- MAX: signed maximum (R157). -/
  | max (rd rs1 rs2 : RegIdx)
  /-- SQRT: square root (R170). -/
  | sqrt (rd rs1 : RegIdx)
  /-- COS: cosine of degrees (R180). -/
  | cos (rd rs1 : RegIdx)
  /-- SIN: sine of degrees (R183). -/
  | sin (rd rs1 : RegIdx)
  /-- TAN: tangent of degrees (R184). -/
  | tan (rd rs1 : RegIdx)
  /-- ATAN2: angle of (x, y), operands y then x (R195). -/
  | atan2 (rd rs1 rs2 : RegIdx)
  /-- ASIN: arcsine (R197). -/
  | asin (rd rs1 : RegIdx)
  /-- ACOS: arccosine (R198). -/
  | acos (rd rs1 : RegIdx)
  /-- ATAN: arctangent (R199). -/
  | atan (rd rs1 : RegIdx)
  /-- EXP: power of the ROM's e (R210). -/
  | exp (rd rs1 : RegIdx)
  /-- POW: base to the exponent (R211). -/
  | pow (rd rs1 rs2 : RegIdx)
  /-- LOG2: binary logarithm (R226). -/
  | log2 (rd rs1 : RegIdx)
  /-- LOG: natural logarithm (R227). -/
  | log (rd rs1 : RegIdx)
  /-- LOG10: decimal logarithm (R228). -/
  | log10 (rd rs1 : RegIdx)
  /-- LOGB: logarithm of a value to a base (R229). -/
  | logb (rd rs1 rs2 : RegIdx)
  deriving DecidableEq, Repr

end Sys2Proof
end

