-- ==== Sys2Proof/WellFormed.lean ====
section
/-! DEFINITION. Which instruction terms a word of the command set can encode (30_encoding R82, R83). -/

namespace Sys2Proof

/-- Every value of a register field is legal (R82), so the only check is CONST's immediate: of its 8 bits only
bits 1:0 may be non-zero, that is `k` is 0 to 3 (R83). -/
def Instr.wf : Instr → Bool
  | .add _ _ _ => true
  | .sub _ _ _ => true
  | .mul _ _ _ => true
  | .div _ _ _ => true
  | .mod _ _ _ => true
  | .shl _ _ _ => true
  | .shr _ _ _ => true
  | .cmpeq _ _ _ => true
  | .cmpne _ _ _ => true
  | .cmplt _ _ _ => true
  | .cmple _ _ _ => true
  | .cmpgt _ _ _ => true
  | .cmpge _ _ _ => true
  | .fromint _ _ => true
  | .toint _ _ => true
  | .mix _ _ _ _ => true
  | .ratio _ _ _ => true
  | .narrow _ _ _ => true
  | .const _ k => decide (k.toNat < 4)
  | .abs _ _ => true
  | .sign _ _ => true
  | .floor _ _ => true
  | .ceil _ _ => true
  | .trunc _ _ => true
  | .round _ _ => true
  | .min _ _ _ => true
  | .max _ _ _ => true
  | .sqrt _ _ => true
  | .cos _ _ => true
  | .sin _ _ => true
  | .tan _ _ => true
  | .atan2 _ _ _ => true
  | .asin _ _ => true
  | .acos _ _ => true
  | .atan _ _ => true
  | .exp _ _ => true
  | .pow _ _ _ => true
  | .log2 _ _ => true
  | .log _ _ => true
  | .log10 _ _ => true
  | .logb _ _ _ => true

end Sys2Proof
end

