-- ==== Sys2Proof/Decode.lean ====
section
/-! DEFINITION. Decoding and encoding of command words (30_encoding R80, R81, R84, R85, R89). -/

namespace Sys2Proof

/-- Why a word is no instruction (30_encoding R85). Either reason makes the word illegal. -/
inductive Reject where
  /-- The opcode is not in the map of R84 (0x00 and 0xF0 to 0xFF among them). -/
  | unassignedOpcode
  /-- A must-be-zero bit of the opcode's format is 1 (R81). -/
  | mustBeZero
  deriving DecidableEq, Repr

/-! ## The fields of a word (R80) -/

/-- Bits 31:24. -/
def opcodeOf (w : Word) : BitVec 8 := w.extractLsb' 24 8
/-- Bits 23:20. -/
def rdOf (w : Word) : RegIdx := w.extractLsb' 20 4
/-- Bits 19:16. -/
def rs1Of (w : Word) : RegIdx := w.extractLsb' 16 4
/-- Bits 15:12. -/
def rs2Of (w : Word) : RegIdx := w.extractLsb' 12 4
/-- Bits 11:8. -/
def rs3Of (w : Word) : RegIdx := w.extractLsb' 8 4
/-- Bits 7:0. -/
def immOf (w : Word) : BitVec 8 := w.extractLsb' 0 8

/-! ## The formats (R81): the must-be-zero bits are checked, then the fields the format uses are taken -/

/-- The must-be-zero bits 15:0 of format R2. -/
def mustBeZeroR2 : Word := 0x0000FFFF#32
/-- The must-be-zero bits 11:0 of format R3. -/
def mustBeZeroR3 : Word := 0x00000FFF#32
/-- The must-be-zero bits 7:0 of format R4. -/
def mustBeZeroR4 : Word := 0x000000FF#32
/-- The must-be-zero bits 19:8 and 7:2 of format K. -/
def mustBeZeroK : Word := 0x000FFFFC#32

/-- A word whose must-be-zero bits are clear is the instruction, any other is rejected (R89). -/
def checked (mustBeZero w : Word) (i : Instr) : Except Reject Instr :=
  if w &&& mustBeZero = 0#32 then .ok i else .error .mustBeZero

/-- Format R2: rd, rs1. -/
def decodeR2 (mk : RegIdx → RegIdx → Instr) (w : Word) : Except Reject Instr :=
  checked mustBeZeroR2 w (mk (rdOf w) (rs1Of w))
/-- Format R3: rd, rs1, rs2. -/
def decodeR3 (mk : RegIdx → RegIdx → RegIdx → Instr) (w : Word) : Except Reject Instr :=
  checked mustBeZeroR3 w (mk (rdOf w) (rs1Of w) (rs2Of w))
/-- Format R4: rd, rs1, rs2, rs3. -/
def decodeR4 (mk : RegIdx → RegIdx → RegIdx → RegIdx → Instr) (w : Word) : Except Reject Instr :=
  checked mustBeZeroR4 w (mk (rdOf w) (rs1Of w) (rs2Of w) (rs3Of w))
/-- Format K: rd, k. -/
def decodeK (mk : RegIdx → BitVec 8 → Instr) (w : Word) : Except Reject Instr :=
  checked mustBeZeroK w (mk (rdOf w) (immOf w))

/-- Decoding a command word (R89), by the opcode map of R84: total, and every word outside the map is rejected. -/
def decode (w : Word) : Except Reject Instr :=
  match (opcodeOf w).toNat with
  | 0x01 => decodeR3 .add w
  | 0x02 => decodeR3 .sub w
  | 0x03 => decodeR3 .mul w
  | 0x04 => decodeR3 .div w
  | 0x05 => decodeR3 .mod w
  | 0x06 => decodeR3 .shl w
  | 0x07 => decodeR3 .shr w
  | 0x08 => decodeR3 .cmpeq w
  | 0x09 => decodeR3 .cmpne w
  | 0x0A => decodeR3 .cmplt w
  | 0x0B => decodeR3 .cmple w
  | 0x0C => decodeR3 .cmpgt w
  | 0x0D => decodeR3 .cmpge w
  | 0x10 => decodeR2 .fromint w
  | 0x11 => decodeR2 .toint w
  | 0x12 => decodeR4 .mix w
  | 0x13 => decodeR3 .ratio w
  | 0x18 => decodeR3 .narrow w
  | 0x19 => decodeK .const w
  | 0x20 => decodeR2 .abs w
  | 0x21 => decodeR2 .sign w
  | 0x22 => decodeR2 .floor w
  | 0x23 => decodeR2 .ceil w
  | 0x24 => decodeR2 .trunc w
  | 0x25 => decodeR2 .round w
  | 0x26 => decodeR3 .min w
  | 0x27 => decodeR3 .max w
  | 0x28 => decodeR2 .sqrt w
  | 0x30 => decodeR2 .cos w
  | 0x31 => decodeR2 .sin w
  | 0x32 => decodeR2 .tan w
  | 0x38 => decodeR3 .atan2 w
  | 0x39 => decodeR2 .asin w
  | 0x3A => decodeR2 .acos w
  | 0x3B => decodeR2 .atan w
  | 0x40 => decodeR2 .exp w
  | 0x41 => decodeR3 .pow w
  | 0x48 => decodeR2 .log2 w
  | 0x49 => decodeR2 .log w
  | 0x4A => decodeR2 .log10 w
  | 0x4B => decodeR3 .logb w
  | _ => .error .unassignedOpcode

/-! ## Encoding (R80, R81, R84) -/

/-- A word from its six fields, the opcode highest (R80). -/
def pack (op : BitVec 8) (rd rs1 rs2 rs3 : RegIdx) (k : BitVec 8) : Word :=
  op ++ rd ++ rs1 ++ rs2 ++ rs3 ++ k

/-- The word of an instruction: its opcode, its fields, and zero in every must-be-zero bit (R81, R84). -/
def encode : Instr → Word
  | .add rd rs1 rs2 => pack 0x01#8 rd rs1 rs2 0 0
  | .sub rd rs1 rs2 => pack 0x02#8 rd rs1 rs2 0 0
  | .mul rd rs1 rs2 => pack 0x03#8 rd rs1 rs2 0 0
  | .div rd rs1 rs2 => pack 0x04#8 rd rs1 rs2 0 0
  | .mod rd rs1 rs2 => pack 0x05#8 rd rs1 rs2 0 0
  | .shl rd rs1 rs2 => pack 0x06#8 rd rs1 rs2 0 0
  | .shr rd rs1 rs2 => pack 0x07#8 rd rs1 rs2 0 0
  | .cmpeq rd rs1 rs2 => pack 0x08#8 rd rs1 rs2 0 0
  | .cmpne rd rs1 rs2 => pack 0x09#8 rd rs1 rs2 0 0
  | .cmplt rd rs1 rs2 => pack 0x0A#8 rd rs1 rs2 0 0
  | .cmple rd rs1 rs2 => pack 0x0B#8 rd rs1 rs2 0 0
  | .cmpgt rd rs1 rs2 => pack 0x0C#8 rd rs1 rs2 0 0
  | .cmpge rd rs1 rs2 => pack 0x0D#8 rd rs1 rs2 0 0
  | .fromint rd rs1 => pack 0x10#8 rd rs1 0 0 0
  | .toint rd rs1 => pack 0x11#8 rd rs1 0 0 0
  | .mix rd rs1 rs2 rs3 => pack 0x12#8 rd rs1 rs2 rs3 0
  | .ratio rd rs1 rs2 => pack 0x13#8 rd rs1 rs2 0 0
  | .narrow rd rs1 rs2 => pack 0x18#8 rd rs1 rs2 0 0
  | .const rd k => pack 0x19#8 rd 0 0 0 k
  | .abs rd rs1 => pack 0x20#8 rd rs1 0 0 0
  | .sign rd rs1 => pack 0x21#8 rd rs1 0 0 0
  | .floor rd rs1 => pack 0x22#8 rd rs1 0 0 0
  | .ceil rd rs1 => pack 0x23#8 rd rs1 0 0 0
  | .trunc rd rs1 => pack 0x24#8 rd rs1 0 0 0
  | .round rd rs1 => pack 0x25#8 rd rs1 0 0 0
  | .min rd rs1 rs2 => pack 0x26#8 rd rs1 rs2 0 0
  | .max rd rs1 rs2 => pack 0x27#8 rd rs1 rs2 0 0
  | .sqrt rd rs1 => pack 0x28#8 rd rs1 0 0 0
  | .cos rd rs1 => pack 0x30#8 rd rs1 0 0 0
  | .sin rd rs1 => pack 0x31#8 rd rs1 0 0 0
  | .tan rd rs1 => pack 0x32#8 rd rs1 0 0 0
  | .atan2 rd rs1 rs2 => pack 0x38#8 rd rs1 rs2 0 0
  | .asin rd rs1 => pack 0x39#8 rd rs1 0 0 0
  | .acos rd rs1 => pack 0x3A#8 rd rs1 0 0 0
  | .atan rd rs1 => pack 0x3B#8 rd rs1 0 0 0
  | .exp rd rs1 => pack 0x40#8 rd rs1 0 0 0
  | .pow rd rs1 rs2 => pack 0x41#8 rd rs1 rs2 0 0
  | .log2 rd rs1 => pack 0x48#8 rd rs1 0 0 0
  | .log rd rs1 => pack 0x49#8 rd rs1 0 0 0
  | .log10 rd rs1 => pack 0x4A#8 rd rs1 0 0 0
  | .logb rd rs1 rs2 => pack 0x4B#8 rd rs1 rs2 0 0

/-- The opcode_table.json mask of an instruction: opcode and must-be-zero bits of its format (R81). -/
def Instr.mask : Instr → Word
  | .add _ _ _ => 0xFF000000#32 ||| mustBeZeroR3
  | .sub _ _ _ => 0xFF000000#32 ||| mustBeZeroR3
  | .mul _ _ _ => 0xFF000000#32 ||| mustBeZeroR3
  | .div _ _ _ => 0xFF000000#32 ||| mustBeZeroR3
  | .mod _ _ _ => 0xFF000000#32 ||| mustBeZeroR3
  | .shl _ _ _ => 0xFF000000#32 ||| mustBeZeroR3
  | .shr _ _ _ => 0xFF000000#32 ||| mustBeZeroR3
  | .cmpeq _ _ _ => 0xFF000000#32 ||| mustBeZeroR3
  | .cmpne _ _ _ => 0xFF000000#32 ||| mustBeZeroR3
  | .cmplt _ _ _ => 0xFF000000#32 ||| mustBeZeroR3
  | .cmple _ _ _ => 0xFF000000#32 ||| mustBeZeroR3
  | .cmpgt _ _ _ => 0xFF000000#32 ||| mustBeZeroR3
  | .cmpge _ _ _ => 0xFF000000#32 ||| mustBeZeroR3
  | .fromint _ _ => 0xFF000000#32 ||| mustBeZeroR2
  | .toint _ _ => 0xFF000000#32 ||| mustBeZeroR2
  | .mix _ _ _ _ => 0xFF000000#32 ||| mustBeZeroR4
  | .ratio _ _ _ => 0xFF000000#32 ||| mustBeZeroR3
  | .narrow _ _ _ => 0xFF000000#32 ||| mustBeZeroR3
  | .const _ _ => 0xFF000000#32 ||| mustBeZeroK
  | .abs _ _ => 0xFF000000#32 ||| mustBeZeroR2
  | .sign _ _ => 0xFF000000#32 ||| mustBeZeroR2
  | .floor _ _ => 0xFF000000#32 ||| mustBeZeroR2
  | .ceil _ _ => 0xFF000000#32 ||| mustBeZeroR2
  | .trunc _ _ => 0xFF000000#32 ||| mustBeZeroR2
  | .round _ _ => 0xFF000000#32 ||| mustBeZeroR2
  | .min _ _ _ => 0xFF000000#32 ||| mustBeZeroR3
  | .max _ _ _ => 0xFF000000#32 ||| mustBeZeroR3
  | .sqrt _ _ => 0xFF000000#32 ||| mustBeZeroR2
  | .cos _ _ => 0xFF000000#32 ||| mustBeZeroR2
  | .sin _ _ => 0xFF000000#32 ||| mustBeZeroR2
  | .tan _ _ => 0xFF000000#32 ||| mustBeZeroR2
  | .atan2 _ _ _ => 0xFF000000#32 ||| mustBeZeroR3
  | .asin _ _ => 0xFF000000#32 ||| mustBeZeroR2
  | .acos _ _ => 0xFF000000#32 ||| mustBeZeroR2
  | .atan _ _ => 0xFF000000#32 ||| mustBeZeroR2
  | .exp _ _ => 0xFF000000#32 ||| mustBeZeroR2
  | .pow _ _ _ => 0xFF000000#32 ||| mustBeZeroR3
  | .log2 _ _ => 0xFF000000#32 ||| mustBeZeroR2
  | .log _ _ => 0xFF000000#32 ||| mustBeZeroR2
  | .log10 _ _ => 0xFF000000#32 ||| mustBeZeroR2
  | .logb _ _ _ => 0xFF000000#32 ||| mustBeZeroR3

/-- The opcode_table.json match of an instruction: its opcode in bits 31:24 (R84). -/
def Instr.opcodeMatch : Instr → Word
  | .add _ _ _ => 0x01000000#32
  | .sub _ _ _ => 0x02000000#32
  | .mul _ _ _ => 0x03000000#32
  | .div _ _ _ => 0x04000000#32
  | .mod _ _ _ => 0x05000000#32
  | .shl _ _ _ => 0x06000000#32
  | .shr _ _ _ => 0x07000000#32
  | .cmpeq _ _ _ => 0x08000000#32
  | .cmpne _ _ _ => 0x09000000#32
  | .cmplt _ _ _ => 0x0A000000#32
  | .cmple _ _ _ => 0x0B000000#32
  | .cmpgt _ _ _ => 0x0C000000#32
  | .cmpge _ _ _ => 0x0D000000#32
  | .fromint _ _ => 0x10000000#32
  | .toint _ _ => 0x11000000#32
  | .mix _ _ _ _ => 0x12000000#32
  | .ratio _ _ _ => 0x13000000#32
  | .narrow _ _ _ => 0x18000000#32
  | .const _ _ => 0x19000000#32
  | .abs _ _ => 0x20000000#32
  | .sign _ _ => 0x21000000#32
  | .floor _ _ => 0x22000000#32
  | .ceil _ _ => 0x23000000#32
  | .trunc _ _ => 0x24000000#32
  | .round _ _ => 0x25000000#32
  | .min _ _ _ => 0x26000000#32
  | .max _ _ _ => 0x27000000#32
  | .sqrt _ _ => 0x28000000#32
  | .cos _ _ => 0x30000000#32
  | .sin _ _ => 0x31000000#32
  | .tan _ _ => 0x32000000#32
  | .atan2 _ _ _ => 0x38000000#32
  | .asin _ _ => 0x39000000#32
  | .acos _ _ => 0x3A000000#32
  | .atan _ _ => 0x3B000000#32
  | .exp _ _ => 0x40000000#32
  | .pow _ _ _ => 0x41000000#32
  | .log2 _ _ => 0x48000000#32
  | .log _ _ => 0x49000000#32
  | .log10 _ _ => 0x4A000000#32
  | .logb _ _ _ => 0x4B000000#32

/-- What the decoder reads from a command whose bits, numbered as opcode_table.json numbers them, are `w`: one
32-bit word (R86), taken whole (20_memory R58), the bits from `nbits` on being 0. A number of more than 32 bits is
no command word. -/
def decodeTableWord (nbits w : Nat) : Option Instr :=
  let v := w % 2 ^ nbits
  if v < 2 ^ 32 then (decode (BitVec.ofNat 32 v)).toOption else none

end Sys2Proof
end

