-- ==== Sys2Proof/Machine/State.lean ====
section
/-! DEFINITION. The state of the FXU and of its host, as plain data (10_state R30 to R49). -/

namespace Sys2Proof.Machine

/-- The run state (10_state R36). -/
inductive RunState where
  /-- Ready for a command or a host register write. -/
  | idle
  /-- One command is executing. -/
  | busy
  /-- A command faulted; the unit accepts no further command. -/
  | halted
  deriving DecidableEq, Repr

/-- The causes a command can raise (60_exceptions R241). Code 0, NONE, is the absence of a cause. -/
inductive Cause where
  /-- The command word is illegal (30_encoding R85). -/
  | illegalInstruction
  /-- A divisor's raw value is 0. -/
  | divideByZero
  /-- Square root of a negative value. -/
  | domainSqrt
  /-- Logarithm of a non-positive value. -/
  | domainLog
  /-- Both ATAN2 operands are 0. -/
  | domainAtan2
  /-- A MIX numerator or denominator is negative. -/
  | invalidArgument
  deriving DecidableEq, Repr

/-- The host transactions (10_state R43 to R49). -/
inductive Transaction where
  /-- ISSUE(w), R44. -/
  | issue (w : Word)
  /-- WRITE_REG(i, v), R45. -/
  | writeReg (i : RegIdx) (v : Word)
  /-- READ_REG(i), R46. -/
  | readReg (i : RegIdx)
  /-- READ_CSR(a), R47. -/
  | readCsr (a : BitVec 8)
  /-- RESET, R49. -/
  | reset
  deriving DecidableEq, Repr

/-- Who moves in a step: the two agents of 10_state R43 (DESIGN CHOICE, log entry 3). -/
inductive Turn where
  /-- The unit: it completes the current command when BUSY. -/
  | unit
  /-- The host, with one transaction. -/
  | host (t : Transaction)
  deriving DecidableEq, Repr

/-- What a transaction gave the host (DESIGN CHOICE, log entry 4). -/
inductive Reply where
  /-- The transaction was accepted and returns no value. -/
  | accepted
  /-- The transaction was not accepted and had no effect (70_reset_and_hazards R276). -/
  | notAccepted
  /-- The value a READ_REG or READ_CSR returned. -/
  | value (w : Word)
  deriving DecidableEq, Repr

/-- Reasons for a step to stop with a fault. There are none: every fault of the FXU is an entry the spec describes
(60_exceptions R242) and so a NEXT state, the HALTED one. -/
inductive Fault where
  deriving DecidableEq, Repr

/-- Reasons for a step to have no meaning. -/
inductive Refusal where
  /-- Raised by `exec`'s arm of an instruction not modelled yet, by its mnemonic. Safe: nothing is said of it.
  No arm raises it now. -/
  | notModelled (mnemonic : String)
  deriving DecidableEq, Repr

/-- The state. The first five fields are the unit's, the next two the host's, the last is the free values' counter.
INVENTORY.md lists each with its rule. -/
structure State where
  /-- `x1` to `x15` (R30), `xi` at index `i - 1`; `x0` is hardwired and has no storage (R31). -/
  regs : Vector Word 15
  /-- The run state (R36). -/
  run : RunState
  /-- The current command, recorded by ISSUE (R44). -/
  command : Word
  /-- STATUS.CAUSE (R37); `none` is code 0. -/
  cause : Option Cause
  /-- FAULTCMD (R38). -/
  faultCmd : Word
  /-- The turns still to come, the next one first; when there is none it is the unit's turn (log entry 3). -/
  turns : List Turn
  /-- The replies of the host's transactions, newest first (log entry 4). -/
  replies : List Reply
  /-- How many free values `Config.unspecifiedWord` have been drawn (log entry 2). -/
  draws : Nat
  deriving DecidableEq, Repr

/-- The machine right after reset (10_state R42): IDLE, STATUS and FAULTCMD 0. The zeros of `x1` to `x15` and of
`command` are this model's (DESIGN CHOICE, log entry 1): the spec gives none. -/
def State.reset : State where
  regs := Vector.replicate 15 0#32
  run := .idle
  command := 0#32
  cause := none
  faultCmd := 0#32
  turns := []
  replies := []
  draws := 0

end Sys2Proof.Machine
end

