-- ==== Sys2Proof/Machine/Arith.lean ====
section
/-! DEFINITION. Arithmetic on mathematical integers as the rules' pseudocode uses it (00_scope R11 to R13), and the
two Scalar helpers of 40_scalar_arith (R102, R103). -/

namespace Sys2Proof.Machine

/-- `wrap32(v)` (R11): `v` reduced to the signed 32-bit range. -/
def wrap32 (v : Int) : Int := (v + 2147483648) % 4294967296 - 2147483648

/-- `wrap64(v)` (R11): `v` reduced to the signed 64-bit range. -/
def wrap64 (v : Int) : Int := (v + 9223372036854775808) % 18446744073709551616 - 9223372036854775808

/-- `v >> n` (R12): the floor of `v / 2^n`. -/
def asr (v : Int) (n : Nat) : Int := v / ((Nat.pow 2 n : Nat) : Int)

/-- `v << n` (R12): `v * 2^n` with no loss. -/
def shiftLeft (v : Int) (n : Nat) : Int := v * ((Nat.pow 2 n : Nat) : Int)

/-- `v & FRACTION_MASK` (R8, R12): the low ten bits of the infinite two's-complement expansion of `v`. -/
def fracPart (v : Int) : Int := v % 1024

/-- `tdiv(a, b)` (R13): the quotient rounded toward zero, for `b` not 0. -/
def tdiv (a b : Int) : Int := Int.tdiv a b

/-- `trem(a, b) = a - tdiv(a, b) * b` (R13). -/
def trem (a b : Int) : Int := a - tdiv a b * b

/-- `fxmul(a, b)` (R102): add half a unit to the product, shift right by FB, wrap. -/
def fxmul (a b : Int) : Int := wrap32 (asr (a * b + 512) Config.fracBits)

/-- `fxdiv(a, b)` (R103): the quotient at double scale, truncated, then halved; a zero divisor raises
DIVIDE_BY_ZERO whatever the dividend. -/
def fxdiv (a b : Int) : Except Cause Int :=
  if b = 0 then .error .divideByZero
  else .ok (wrap32 (asr (tdiv (shiftLeft a (Config.fracBits + 1)) b + 1) 1))

end Sys2Proof.Machine
end

