-- ==== Sys2Proof/Machine/Ops.lean ====
section
/-! DEFINITION. The shared operations over the state: register access (10_state R31, R32), completion of a command
(30_encoding R90), fault entry (60_exceptions R242) and RESET (10_state R49). -/

namespace Sys2Proof.Machine

/-- What `exec` and `step` answer. -/
abbrev StepResult := Host.Outcome State Fault Refusal

/-! ## Registers -/

theorem regSlot_lt (r : RegIdx) : r.toNat - 1 < 15 := by
  have := r.isLt
  omega

/-- `x[r]` read: `x0` reads 0 (R31), any other register its content (R30). -/
def State.readReg (s : State) (r : RegIdx) : Word :=
  if r = 0#4 then 0#32 else s.regs[r.toNat - 1]'(regSlot_lt r)

/-- `x[r]` written: a write of `x0` is discarded with no other effect (R31). -/
def State.writeReg (s : State) (r : RegIdx) (v : Word) : State :=
  if r = 0#4 then s else { s with regs := s.regs.set (r.toNat - 1) v (regSlot_lt r) }

/-! ## The end of a command -/

/-- Normal completion (30_encoding R90): the result is written to `rd` and the run state becomes IDLE. -/
def State.finish (s : State) (rd : RegIdx) (v : Word) : State :=
  { s.writeReg rd v with run := .idle }

/-- Fault entry (60_exceptions R242), in one step: no register is written, CAUSE is set to the cause and FAULTCMD to
the command word, and the run state becomes HALTED. There is no return from it but RESET (R245). -/
def State.raise (s : State) (c : Cause) : State :=
  { s with cause := some c, faultCmd := s.command, run := .halted }

/-- The pattern of a result: `x[rd] <- v` writes `wrap32(v)` (00_scope R14). -/
def ofScalar (v : Int) : Word := BitVec.ofInt 32 v

/-- The end of a command whose function may raise (R90): its value is written, or its cause is entered. -/
def State.conclude (s : State) (rd : RegIdx) (r : Except Cause Int) : StepResult :=
  match r with
  | .ok v => .next (s.finish rd (ofScalar v))
  | .error c => .next (s.raise c)

/-! ## RESET -/

/-- RESET (10_state R49, R42): a command in execution is abandoned and writes no register, and every piece of the
unit's state takes its reset value; `x1` to `x15`, for which R42 gives none, take free values (log entry 2). The
host's own turns and replies are not the unit's state. -/
def State.resetUnit (s : State) : State :=
  { s with
    regs := Vector.ofFn fun i => Config.unspecifiedWord (s.draws + i.val)
    run := .idle
    command := 0#32
    cause := none
    faultCmd := 0#32
    draws := s.draws + 15 }

/-- A state in which the next step completes the command word `w`: the unit is BUSY with `w` and has the next turn.
CAUSE and FAULTCMD are those of a unit that is not HALTED (10_state R37, R38). -/
def State.withCommand (s : State) (w : Word) : State :=
  { s with run := .busy, command := w, cause := none, faultCmd := 0#32, turns := .unit :: s.turns }

end Sys2Proof.Machine
end

