-- ==== Sys2Proof/Machine/Operands.lean ====
section
/-! DEFINITION. The operand kinds (00_scope R15; 30_encoding R81, R82) and the registers an instruction names. -/

namespace Sys2Proof.Machine

/-- A register read as a Scalar: the raw, a signed 32-bit integer (R5, R15). -/
abbrev State.scalar (s : State) (r : RegIdx) : Int := (s.readReg r).toInt

/-- A register read as an integer, signed (R15). -/
abbrev State.integer (s : State) (r : RegIdx) : Int := (s.readReg r).toInt

/-- A shift count: the integer modulo 32, that is bits 4:0 (40_scalar_arith R105, R106). -/
def State.shiftCount (s : State) (r : RegIdx) : Nat := ((s.readReg r).extractLsb' 0 5).toNat

/-- NARROW's operand: the 64-bit pattern of two registers, high word first, signed (41_high_precision R141). -/
def State.highPrecision (s : State) (hi lo : RegIdx) : Int := (s.readReg hi ++ s.readReg lo).toInt

end Sys2Proof.Machine

namespace Sys2Proof

/-- The destination register an instruction names (10_state R32). -/
def Instr.rd : Instr → RegIdx
  | .add rd _ _ => rd
  | .sub rd _ _ => rd
  | .mul rd _ _ => rd
  | .div rd _ _ => rd
  | .mod rd _ _ => rd
  | .shl rd _ _ => rd
  | .shr rd _ _ => rd
  | .cmpeq rd _ _ => rd
  | .cmpne rd _ _ => rd
  | .cmplt rd _ _ => rd
  | .cmple rd _ _ => rd
  | .cmpgt rd _ _ => rd
  | .cmpge rd _ _ => rd
  | .fromint rd _ => rd
  | .toint rd _ => rd
  | .mix rd _ _ _ => rd
  | .ratio rd _ _ => rd
  | .narrow rd _ _ => rd
  | .const rd _ => rd
  | .abs rd _ => rd
  | .sign rd _ => rd
  | .floor rd _ => rd
  | .ceil rd _ => rd
  | .trunc rd _ => rd
  | .round rd _ => rd
  | .min rd _ _ => rd
  | .max rd _ _ => rd
  | .sqrt rd _ => rd
  | .cos rd _ => rd
  | .sin rd _ => rd
  | .tan rd _ => rd
  | .atan2 rd _ _ => rd
  | .asin rd _ => rd
  | .acos rd _ => rd
  | .atan rd _ => rd
  | .exp rd _ => rd
  | .pow rd _ _ => rd
  | .log2 rd _ => rd
  | .log rd _ => rd
  | .log10 rd _ => rd
  | .logb rd _ _ => rd

/-- The source registers an instruction reads, those its format uses (10_state R32). -/
def Instr.sources : Instr → List RegIdx
  | .add _ rs1 rs2 => [rs1, rs2]
  | .sub _ rs1 rs2 => [rs1, rs2]
  | .mul _ rs1 rs2 => [rs1, rs2]
  | .div _ rs1 rs2 => [rs1, rs2]
  | .mod _ rs1 rs2 => [rs1, rs2]
  | .shl _ rs1 rs2 => [rs1, rs2]
  | .shr _ rs1 rs2 => [rs1, rs2]
  | .cmpeq _ rs1 rs2 => [rs1, rs2]
  | .cmpne _ rs1 rs2 => [rs1, rs2]
  | .cmplt _ rs1 rs2 => [rs1, rs2]
  | .cmple _ rs1 rs2 => [rs1, rs2]
  | .cmpgt _ rs1 rs2 => [rs1, rs2]
  | .cmpge _ rs1 rs2 => [rs1, rs2]
  | .fromint _ rs1 => [rs1]
  | .toint _ rs1 => [rs1]
  | .mix _ rs1 rs2 rs3 => [rs1, rs2, rs3]
  | .ratio _ rs1 rs2 => [rs1, rs2]
  | .narrow _ rs1 rs2 => [rs1, rs2]
  | .const _ _ => []
  | .abs _ rs1 => [rs1]
  | .sign _ rs1 => [rs1]
  | .floor _ rs1 => [rs1]
  | .ceil _ rs1 => [rs1]
  | .trunc _ rs1 => [rs1]
  | .round _ rs1 => [rs1]
  | .min _ rs1 rs2 => [rs1, rs2]
  | .max _ rs1 rs2 => [rs1, rs2]
  | .sqrt _ rs1 => [rs1]
  | .cos _ rs1 => [rs1]
  | .sin _ rs1 => [rs1]
  | .tan _ rs1 => [rs1]
  | .atan2 _ rs1 rs2 => [rs1, rs2]
  | .asin _ rs1 => [rs1]
  | .acos _ rs1 => [rs1]
  | .atan _ rs1 => [rs1]
  | .exp _ rs1 => [rs1]
  | .pow _ rs1 rs2 => [rs1, rs2]
  | .log2 _ rs1 => [rs1]
  | .log _ rs1 => [rs1]
  | .log10 _ rs1 => [rs1]
  | .logb _ rs1 rs2 => [rs1, rs2]

end Sys2Proof
end

