-- ==== Sys2Proof/Machine/Flags.lean ====
section
/-! DEFINITION. The FXU has no condition flags (10_state R35): a comparison's outcome is a boolean integer (00_scope
R15), and the only status is what the CSRs show (10_state R37 to R40). -/

namespace Sys2Proof.Machine

/-- A boolean result: the integer 1 (true) or 0 (false) (R15). -/
def ofBool (b : Bool) : Word := if b then 1#32 else 0#32

/-- The cause code of STATUS.CAUSE (60_exceptions R241). -/
def Cause.code : Cause → BitVec 8
  | .illegalInstruction => 1
  | .divideByZero => 2
  | .domainSqrt => 3
  | .domainLog => 4
  | .domainAtan2 => 5
  | .invalidArgument => 6

/-- STATUS.BUSY (R37). -/
def State.busyBit (s : State) : BitVec 1 := if s.run = .busy then 1 else 0

/-- STATUS.HALTED (R37). -/
def State.haltedBit (s : State) : BitVec 1 := if s.run = .halted then 1 else 0

/-- STATUS.CAUSE (R37): 0 when no fault has happened since reset. -/
def State.causeCode (s : State) : BitVec 8 := (s.cause.map Cause.code).getD 0

/-- STATUS (R37): CAUSE in bits 15:8, HALTED in bit 1, BUSY in bit 0, every other bit hardwired 0. -/
def State.statusWord (s : State) : Word := 0#16 ++ s.causeCode ++ 0#6 ++ s.haltedBit ++ s.busyBit

/-- CONFIG (R39), a constant. -/
def configWord : Word := 0x0110020A#32

/-- The CSR at an index (R37 to R40): STATUS, FAULTCMD, CONFIG, and 0 at every reserved index. -/
def State.csr (s : State) (a : BitVec 8) : Word :=
  if a = 0x00#8 then s.statusWord
  else if a = 0x01#8 then s.faultCmd
  else if a = 0x02#8 then configWord
  else 0#32

end Sys2Proof.Machine
end

