-- ==== Sys2Proof/Machine/Elementary.lean ====
section
/-! DEFINITION. Elementary functions (42_elementary R150 to R157): masks of the raw's bit pattern. -/

namespace Sys2Proof.Machine

/-- `v & INT`: the raw with its ten fraction bits cleared. -/
def intPart (v : Word) : Word := v &&& 0xFFFFFC00#32

/-- ABS's function (R150): the negation wraps. -/
def absRaw (a : Int) : Int := if a < 0 then wrap32 (-a) else a

/-- ABS (R150). -/
def execAbs (rd rs1 : RegIdx) (s : State) : StepResult :=
  .next (s.finish rd (ofScalar (absRaw (s.scalar rs1))))

/-- SIGN's function (R151): -1.0, 1.0 or 0 as a Scalar. -/
def signRaw (a : Int) : Int := if a < 0 then -Config.one else if a > 0 then Config.one else 0

/-- SIGN (R151). -/
def execSign (rd rs1 : RegIdx) (s : State) : StepResult :=
  .next (s.finish rd (ofScalar (signRaw (s.scalar rs1))))

/-- FLOOR's mask (R152). -/
def floorRaw (v : Word) : Word := intPart v

/-- FLOOR (R152). -/
def execFloor (rd rs1 : RegIdx) (s : State) : StepResult :=
  .next (s.finish rd (floorRaw (s.readReg rs1)))

/-- CEIL's mask (R153): the add wraps. -/
def ceilRaw (v : Word) : Word := intPart (v + 0x3FF#32)

/-- CEIL (R153). -/
def execCeil (rd rs1 : RegIdx) (s : State) : StepResult :=
  .next (s.finish rd (ceilRaw (s.readReg rs1)))

/-- TRUNC's masks (R154): CEIL's for a negative raw, FLOOR's otherwise. -/
def truncRaw (v : Word) : Word := if v.toInt < 0 then intPart (v + 0x3FF#32) else intPart v

/-- TRUNC (R154). -/
def execTrunc (rd rs1 : RegIdx) (s : State) : StepResult :=
  .next (s.finish rd (truncRaw (s.readReg rs1)))

/-- ROUND's mask (R155): the add wraps. -/
def roundRaw (v : Word) : Word := intPart (v + 512#32)

/-- ROUND (R155). -/
def execRound (rd rs1 : RegIdx) (s : State) : StepResult :=
  .next (s.finish rd (roundRaw (s.readReg rs1)))

/-- MIN (R156), signed. -/
def execMin (rd rs1 rs2 : RegIdx) (s : State) : StepResult :=
  .next (s.finish rd (if s.scalar rs1 < s.scalar rs2 then s.readReg rs1 else s.readReg rs2))

/-- MAX (R157), signed. -/
def execMax (rd rs1 rs2 : RegIdx) (s : State) : StepResult :=
  .next (s.finish rd (if s.scalar rs1 > s.scalar rs2 then s.readReg rs1 else s.readReg rs2))

end Sys2Proof.Machine
end

