-- ==== Sys2Proof/Machine/Rom.lean ====
section
/-! DEFINITION. The ROMs (20_memory R51, R53 to R56): fixed contents, read by index, never written. Every index a
rule computes is in range (R57), so the value beyond the end, 0, is never read; Laws/Rom.lean proves the ranges. -/

namespace Sys2Proof.Machine

/-- QS[0] to QS[89] (R53), ten entries a line. -/
def qsTable0 : List Int :=
  [1024, 1024, 1024, 1024, 1024, 1024, 1024, 1024, 1023, 1023,
   1023, 1023, 1023, 1022, 1022, 1022, 1022, 1021, 1021, 1020,
   1020, 1020, 1019, 1019, 1018, 1018, 1017, 1017, 1016, 1016,
   1015, 1015, 1014, 1013, 1013, 1012, 1011, 1011, 1010, 1009,
   1008, 1008, 1007, 1006, 1005, 1004, 1003, 1003, 1002, 1001,
   1000, 999, 998, 997, 996, 995, 994, 992, 991, 990,
   989, 988, 987, 986, 984, 983, 982, 981, 979, 978,
   977, 975, 974, 972, 971, 970, 968, 967, 965, 964,
   962, 961, 959, 958, 956, 954, 953, 951, 949, 948]

/-- QS[90] to QS[179] (R53), ten entries a line. -/
def qsTable1 : List Int :=
  [946, 944, 943, 941, 939, 937, 935, 934, 932, 930,
   928, 926, 924, 922, 920, 918, 916, 914, 912, 910,
   908, 906, 904, 902, 900, 898, 896, 893, 891, 889,
   887, 885, 882, 880, 878, 875, 873, 871, 868, 866,
   864, 861, 859, 856, 854, 851, 849, 846, 844, 841,
   839, 836, 834, 831, 828, 826, 823, 820, 818, 815,
   812, 810, 807, 804, 801, 799, 796, 793, 790, 787,
   784, 782, 779, 776, 773, 770, 767, 764, 761, 758,
   755, 752, 749, 746, 743, 740, 737, 733, 730, 727]

/-- QS[180] to QS[269] (R53), ten entries a line. -/
def qsTable2 : List Int :=
  [724, 721, 718, 715, 711, 708, 705, 702, 698, 695,
   692, 689, 685, 682, 679, 675, 672, 668, 665, 662,
   658, 655, 651, 648, 644, 641, 637, 634, 630, 627,
   623, 620, 616, 613, 609, 606, 602, 598, 595, 591,
   587, 584, 580, 576, 573, 569, 565, 561, 558, 554,
   550, 546, 543, 539, 535, 531, 527, 524, 520, 516,
   512, 508, 504, 500, 496, 493, 489, 485, 481, 477,
   473, 469, 465, 461, 457, 453, 449, 445, 441, 437,
   433, 429, 425, 421, 416, 412, 408, 404, 400, 396]

/-- QS[270] to QS[360] (R53), ten entries a line. -/
def qsTable3 : List Int :=
  [392, 388, 384, 379, 375, 371, 367, 363, 359, 354,
   350, 346, 342, 338, 333, 329, 325, 321, 316, 312,
   308, 304, 299, 295, 291, 287, 282, 278, 274, 269,
   265, 261, 256, 252, 248, 243, 239, 235, 230, 226,
   222, 217, 213, 209, 204, 200, 195, 191, 187, 182,
   178, 173, 169, 165, 160, 156, 151, 147, 143, 138,
   134, 129, 125, 120, 116, 111, 107, 103, 98, 94,
   89, 85, 80, 76, 71, 67, 63, 58, 54, 49,
   45, 40, 36, 31, 27, 22, 18, 13, 9, 4,
   0]

/-- The QS ROM (R53): the cosine of `0, 0.25, ..., 90` degrees, 361 entries. -/
def qsTable : List Int := qsTable0 ++ qsTable1 ++ qsTable2 ++ qsTable3

/-- `QS[k]`, for `k` in 0 to 360. -/
def qsRom (k : Nat) : Int := qsTable.getD k 0

/-- The ATAN ROM (R54): the arctangent of `2^-i` in degrees, 12 entries. -/
def atanTable : List Int := [46080, 27203, 14373, 7296, 3662, 1833, 917, 458, 229, 115, 57, 29]

/-- `ATAN_ROM[i]`, for `i` in 0 to 11. -/
def atanRom (i : Nat) : Int := atanTable.getD i 0

/-- The INVFACT ROM (R55): `1/k!` for `k` in 2 to 6. -/
def invFactTable : List Int := [512, 171, 43, 9, 1]

/-- `INVFACT[k]`, for `k` in 2 to 6. -/
def invFactRom (k : Nat) : Int := invFactTable.getD (k - 2) 0

/-- The CONST ROM (R56): PI, E, LN2, LOG10_2. -/
def constTable : List Int := [3217, 2784, 710, 308]

/-- `CONST_ROM[k]`, for `k` in 0 to 3. -/
def constRom (k : Nat) : Int := constTable.getD k 0

/-- E, `CONST_ROM[1]` (R56). -/
def romE : Int := constRom 1
/-- LN2, `CONST_ROM[2]` (R56). -/
def romLn2 : Int := constRom 2
/-- LOG10_2, `CONST_ROM[3]` (R56). -/
def romLog10Of2 : Int := constRom 3

end Sys2Proof.Machine
end

