-- ==== Sys2Proof/Machine/HighPrecision.lean ====
section
/-! DEFINITION. High-precision narrowing and named constants (41_high_precision R140 to R142). -/

namespace Sys2Proof.Machine

/-- `narrow(h)` (R140): add half a unit of the result at 64 bits, shift right by 22, wrap to 32 bits. -/
def narrow (h : Int) : Int := wrap32 (asr (wrap64 (h + 2097152)) 22)

/-- NARROW (R141). -/
def execNarrow (rd rs1 rs2 : RegIdx) (s : State) : StepResult :=
  .next (s.finish rd (ofScalar (narrow (s.highPrecision rs1 rs2))))

/-- CONST's function (R142): the ROM entry. A `k` above 3 is in no decoded instruction (30_encoding R83); such an
ill-formed term raises what R142 says an out-of-range `k` raises. -/
def namedConst (k : BitVec 8) : Except Cause Int :=
  if k.toNat < 4 then .ok (constRom k.toNat) else .error .illegalInstruction

/-- CONST (R142). -/
def execConst (rd : RegIdx) (k : BitVec 8) (s : State) : StepResult :=
  s.conclude rd (namedConst k)

end Sys2Proof.Machine
end

