-- ==== Sys2Proof/Machine/SquareRoot.lean ====
section
/-! DEFINITION. Square root by integer Newton iteration (43_sqrt R170, R171). -/

namespace Sys2Proof.Machine

/-- The number of bits of `n` (R171). -/
def bitlen (n : Nat) : Nat := if n = 0 then 0 else Nat.log2 n + 1

/-- R171's iteration from `x`, with at most `cap` evaluations left: it stops at the last decreasing value. -/
def newtonLoop (n : Nat) : (cap : Nat) → (x : Nat) → Nat
  | 0, x => x
  | cap + 1, x => if (x + n / x) / 2 ≥ x then x else newtonLoop n cap ((x + n / x) / 2)

/-- The starting value of R171: the least power of two its bit length gives, not below the root. -/
def newtonStart (n : Nat) : Nat := Nat.pow 2 ((bitlen n + 1) / 2)

/-- `isqrt_newton(n)` (R171). -/
def isqrtNewton (n : Nat) : Nat := newtonLoop n Config.sqrtCap (newtonStart n)

/-- SQRT's function (R170): a negative operand raises DOMAIN_SQRT, 0 gives 0, and any other is pre-scaled by twelve
bits, rooted, and halved with the half-bit adjustment. -/
def sqrtRaw (a : Int) : Except Cause Int :=
  if a < 0 then .error .domainSqrt
  else if a = 0 then .ok 0
  else .ok (asr (isqrtNewton (shiftLeft a (Config.fracBits + 2)).toNat + 1) 1)

/-- SQRT (R170). -/
def execSqrt (rd rs1 : RegIdx) (s : State) : StepResult :=
  s.conclude rd (sqrtRaw (s.scalar rs1))

end Sys2Proof.Machine
end

