-- ==== Sys2Proof/Machine/InverseTrig.lean ====
section
/-! DEFINITION. Inverse trigonometric functions by CORDIC vectoring (45_inverse_trig R195 to R200). -/

namespace Sys2Proof.Machine

/-- The registers of the vectoring unit (R196), which live only while one command runs (10_state R41). -/
structure Cordic where
  /-- X. -/
  x : Int
  /-- Y. -/
  y : Int
  /-- ANG, the accumulated angle. -/
  ang : Int
  deriving DecidableEq, Repr

/-- The pre-rotation of R196 into the right half-plane, by the sign of `y`. -/
def preRotate (y x : Int) : Cordic :=
  if x < 0 then
    if y > 0 then ⟨y, -x, 92160⟩
    else if y < 0 then ⟨-y, x, -92160⟩
    else ⟨-x, 0, 184320⟩
  else ⟨x, y, 0⟩

/-- Step `i` of R196, both shifts of the values before the step. -/
def cordicStep (c : Cordic) (i : Nat) : Cordic :=
  if c.y > 0 then ⟨c.x + asr c.y i, c.y - asr c.x i, c.ang + atanRom i⟩
  else ⟨c.x - asr c.y i, c.y + asr c.x i, c.ang - atanRom i⟩

/-- The loop of R196 from step `i`, with `n` steps left: it stops before a step once `Y` is 0. -/
def cordicLoop : (n : Nat) → (i : Nat) → Cordic → Cordic
  | 0, _, c => c
  | n + 1, i, c => if c.y = 0 then c else cordicLoop n (i + 1) (cordicStep c i)

/-- `cordic_vec(y, x)` (R196). -/
def cordicVec (y x : Int) : Int := (cordicLoop Config.cordicSteps 0 (preRotate y x)).ang

/-- ATAN2's function (R195): both operands 0 raises DOMAIN_ATAN2. -/
def atan2Raw (y x : Int) : Except Cause Int :=
  if y = 0 ∧ x = 0 then .error .domainAtan2 else .ok (wrap32 (cordicVec y x))

/-- `root1m(v)` (R200): every step wraps as the Scalar operation it names. -/
def root1m (v : Int) : Except Cause Int :=
  sqrtRaw (fxmul (wrap32 (Config.one + v)) (wrap32 (Config.one - v)))

/-- ASIN's function (R197): `ATAN2(v, root1m(v))`. -/
def asinRaw (v : Int) : Except Cause Int :=
  match root1m v with
  | .error c => .error c
  | .ok r => atan2Raw v r

/-- ACOS's function (R198): `ATAN2(root1m(v), v)`. -/
def acosRaw (v : Int) : Except Cause Int :=
  match root1m v with
  | .error c => .error c
  | .ok r => atan2Raw r v

/-- ATAN's function (R199): `ATAN2(v, ONE)`. -/
def atanRaw (v : Int) : Except Cause Int := atan2Raw v Config.one

/-- ATAN2 (R195), operands `y` then `x`. -/
def execAtan2 (rd rs1 rs2 : RegIdx) (s : State) : StepResult :=
  s.conclude rd (atan2Raw (s.scalar rs1) (s.scalar rs2))

/-- ASIN (R197). -/
def execAsin (rd rs1 : RegIdx) (s : State) : StepResult :=
  s.conclude rd (asinRaw (s.scalar rs1))

/-- ACOS (R198). -/
def execAcos (rd rs1 : RegIdx) (s : State) : StepResult :=
  s.conclude rd (acosRaw (s.scalar rs1))

/-- ATAN (R199). -/
def execAtan (rd rs1 : RegIdx) (s : State) : StepResult :=
  s.conclude rd (atanRaw (s.scalar rs1))

end Sys2Proof.Machine
end

