-- ==== Sys2Proof/Machine/Log.lean ====
section
/-! DEFINITION. Logarithms by the bit-recurrence extractor (47_log R225 to R229). -/

namespace Sys2Proof.Machine

/-- R225's first loop, with `n` shifts left: halve `X` while it is 2.0 or more, counting up. -/
def normDown : (n : Nat) → (x e : Int) → Int × Int
  | 0, x, e => (x, e)
  | n + 1, x, e => if x ≥ 2048 then normDown n (asr x 1) (e + 1) else (x, e)

/-- R225's second loop, with `n` shifts left: double `X` while it is below 1.0, counting down. -/
def normUp : (n : Nat) → (x e : Int) → Int × Int
  | 0, x, e => (x, e)
  | n + 1, x, e => if x < 1024 then normUp n (shiftLeft x 1) (e - 1) else (x, e)

/-- R225's normalisation of a positive `v`: at most 20 right shifts, then at most 10 left shifts. -/
def normalise (v : Int) : Int × Int :=
  normUp 10 (normDown 20 v 0).1 (normDown 20 v 0).2

/-- R225's extraction, `n` steps: square, and take one fraction bit by the threshold 2.0. -/
def extractBits : (n : Nat) → (x f : Int) → Int
  | 0, _, f => f
  | n + 1, x, f =>
    if fxmul x x ≥ 2048 then extractBits n (asr (fxmul x x) 1) (2 * f + 1)
    else extractBits n (fxmul x x) (2 * f)

/-- `log2_raw(v)` (R225): a non-positive `v` raises DOMAIN_LOG. -/
def log2Raw (v : Int) : Except Cause Int :=
  if v ≤ 0 then .error .domainLog
  else .ok (wrap32 (shiftLeft (normalise v).2 Config.fracBits + extractBits Config.logSteps (normalise v).1 0))

/-- LOG's function (R227). -/
def logRaw (v : Int) : Except Cause Int :=
  match log2Raw v with
  | .error c => .error c
  | .ok l => .ok (fxmul l romLn2)

/-- LOG10's function (R228). -/
def log10Raw (v : Int) : Except Cause Int :=
  match log2Raw v with
  | .error c => .error c
  | .ok l => .ok (fxmul l romLog10Of2)

/-- LOGB's function (R229): the value's logarithm first, then the base by exact raw comparison with 2.0, the ROM's e
and 10.0, else the Scalar quotient of the two logarithms. -/
def logbRaw (v base : Int) : Except Cause Int :=
  match log2Raw v with
  | .error c => .error c
  | .ok lv =>
    if base = 2 * Config.one then .ok lv
    else if base = romE then .ok (fxmul lv romLn2)
    else if base = 10 * Config.one then .ok (fxmul lv romLog10Of2)
    else
      match log2Raw base with
      | .error c => .error c
      | .ok lb => fxdiv lv lb

/-- LOG2 (R226). -/
def execLog2 (rd rs1 : RegIdx) (s : State) : StepResult :=
  s.conclude rd (log2Raw (s.scalar rs1))

/-- LOG (R227). -/
def execLog (rd rs1 : RegIdx) (s : State) : StepResult :=
  s.conclude rd (logRaw (s.scalar rs1))

/-- LOG10 (R228). -/
def execLog10 (rd rs1 : RegIdx) (s : State) : StepResult :=
  s.conclude rd (log10Raw (s.scalar rs1))

/-- LOGB (R229), operands value then base. -/
def execLogb (rd rs1 rs2 : RegIdx) (s : State) : StepResult :=
  s.conclude rd (logbRaw (s.scalar rs1) (s.scalar rs2))

end Sys2Proof.Machine
end

