-- ==== Sys2Proof/Machine/Power.lean ====
section
/-! DEFINITION. Power and exponential by binary exponentiation and the Taylor series (46_pow_exp R210 to R214). -/

namespace Sys2Proof.Machine

/-- R212's loop, with at most `cap` passes left: right-to-left binary exponentiation, lowest bit first, the final
squaring skipped. -/
def powLoop : (cap : Nat) → (r base : Int) → (n : Nat) → Int
  | 0, r, _, _ => r
  | cap + 1, r, base, n =>
    if n = 0 then r
    else powLoop cap (if n % 2 = 1 then fxmul r base else r)
      (if n / 2 ≠ 0 then fxmul base base else base) (n / 2)

/-- `pow_int(b, n)` (R212): a negative exponent takes the reciprocal first; at most 22 passes. -/
def powInt (b n : Int) : Except Cause Int :=
  if n < 0 then
    match fxdiv Config.one b with
    | .error c => .error c
    | .ok base => .ok (powLoop 22 Config.one base n.natAbs)
  else .ok (powLoop 22 Config.one b n.natAbs)

/-- R213's series, `n` terms from the term of index `k` on: `pw` holds the power of `z` so far and `s` the sum. -/
def seriesLoop (z : Int) : (n : Nat) → (k : Nat) → (pw s : Int) → Int
  | 0, _, _, s => s
  | n + 1, k, pw, s => seriesLoop z n (k + 1) (fxmul pw z) (s + fxmul (fxmul pw z) (invFactRom k))

/-- The series sum of R213 for `z`: the terms 0 and 1, then the terms 2 to 6. -/
def expSeries (z : Int) : Int := seriesLoop z 5 2 z (Config.one + z)

/-- `scale(s, ip)` (R214): a wrapping left shift or a truncating right shift. -/
def scale (s ip : Int) : Int :=
  if ip ≥ 0 then wrap32 (shiftLeft s ip.toNat) else asr s (-ip).toNat

/-- R213 after its logarithm `lb`. -/
def powOfLog (x lb : Int) : Int :=
  scale (expSeries (fxmul (fracPart (fxmul x lb)) romLn2)) (asr (fxmul x lb) Config.fracBits)

/-- `pow_frac(b, x)` (R213): a non-positive base raises DOMAIN_LOG. -/
def powFrac (b x : Int) : Except Cause Int :=
  match log2Raw b with
  | .error c => .error c
  | .ok lb => .ok (powOfLog x lb)

/-- `pow(b, x)` (R211): base 1.0 or exponent 0 gives 1.0 before any other test. -/
def powRaw (b x : Int) : Except Cause Int :=
  if b = Config.one ∨ x = 0 then .ok Config.one
  else if fracPart x = 0 then powInt b (asr x Config.fracBits)
  else powFrac b x

/-- EXP (R210): POW of the ROM's e. -/
def execExp (rd rs1 : RegIdx) (s : State) : StepResult :=
  s.conclude rd (powRaw romE (s.scalar rs1))

/-- POW (R211), operands base then exponent. -/
def execPow (rd rs1 rs2 : RegIdx) (s : State) : StepResult :=
  s.conclude rd (powRaw (s.scalar rs1) (s.scalar rs2))

end Sys2Proof.Machine
end

