-- ==== Sys2Proof/Machine/Scalar.lean ====
section
/-! DEFINITION. Scalar arithmetic, shifts, comparisons and conversions (40_scalar_arith R100 to R116). -/

namespace Sys2Proof.Machine

/-- ADD (R100). -/
def execAdd (rd rs1 rs2 : RegIdx) (s : State) : StepResult :=
  .next (s.finish rd (ofScalar (s.scalar rs1 + s.scalar rs2)))

/-- SUB (R101). -/
def execSub (rd rs1 rs2 : RegIdx) (s : State) : StepResult :=
  .next (s.finish rd (ofScalar (s.scalar rs1 - s.scalar rs2)))

/-- MUL (R102). -/
def execMul (rd rs1 rs2 : RegIdx) (s : State) : StepResult :=
  .next (s.finish rd (ofScalar (fxmul (s.scalar rs1) (s.scalar rs2))))

/-- DIV (R103). -/
def execDiv (rd rs1 rs2 : RegIdx) (s : State) : StepResult :=
  s.conclude rd (fxdiv (s.scalar rs1) (s.scalar rs2))

/-- The remainder, or DIVIDE_BY_ZERO for a zero divisor (R104). -/
def fxmod (a b : Int) : Except Cause Int :=
  if b = 0 then .error .divideByZero else .ok (trem a b)

/-- MOD (R104). -/
def execMod (rd rs1 rs2 : RegIdx) (s : State) : StepResult :=
  s.conclude rd (fxmod (s.scalar rs1) (s.scalar rs2))

/-- SHL (R105). -/
def execShl (rd rs1 rs2 : RegIdx) (s : State) : StepResult :=
  .next (s.finish rd (ofScalar (shiftLeft (s.scalar rs1) (s.shiftCount rs2))))

/-- SHR (R106), arithmetic. -/
def execShr (rd rs1 rs2 : RegIdx) (s : State) : StepResult :=
  .next (s.finish rd (ofScalar (asr (s.scalar rs1) (s.shiftCount rs2))))

/-- CMPEQ (R107). -/
def execCmpeq (rd rs1 rs2 : RegIdx) (s : State) : StepResult :=
  .next (s.finish rd (ofBool (s.scalar rs1 = s.scalar rs2)))

/-- CMPNE (R108). -/
def execCmpne (rd rs1 rs2 : RegIdx) (s : State) : StepResult :=
  .next (s.finish rd (ofBool (s.scalar rs1 ≠ s.scalar rs2)))

/-- CMPLT (R109), signed. -/
def execCmplt (rd rs1 rs2 : RegIdx) (s : State) : StepResult :=
  .next (s.finish rd (ofBool (s.scalar rs1 < s.scalar rs2)))

/-- CMPLE (R110), signed. -/
def execCmple (rd rs1 rs2 : RegIdx) (s : State) : StepResult :=
  .next (s.finish rd (ofBool (s.scalar rs1 ≤ s.scalar rs2)))

/-- CMPGT (R111), signed. -/
def execCmpgt (rd rs1 rs2 : RegIdx) (s : State) : StepResult :=
  .next (s.finish rd (ofBool (s.scalar rs1 > s.scalar rs2)))

/-- CMPGE (R112), signed. -/
def execCmpge (rd rs1 rs2 : RegIdx) (s : State) : StepResult :=
  .next (s.finish rd (ofBool (s.scalar rs1 ≥ s.scalar rs2)))

/-- FROMINT (R113). -/
def execFromint (rd rs1 : RegIdx) (s : State) : StepResult :=
  .next (s.finish rd (ofScalar (shiftLeft (s.integer rs1) Config.fracBits)))

/-- TOINT (R114), which floors. -/
def execToint (rd rs1 : RegIdx) (s : State) : StepResult :=
  .next (s.finish rd (ofScalar (asr (s.scalar rs1) Config.fracBits)))

/-- MIX's function (R115): the signs are checked before the divisor; the fraction is the DIV quotient's low ten bits,
added to a non-negative integer part and subtracted from a negative one. -/
def mix (i n d : Int) : Except Cause Int :=
  if n < 0 ∨ d < 0 then .error .invalidArgument
  else
    match fxdiv n d with
    | .error c => .error c
    | .ok q =>
      if i < 0 then .ok (wrap32 (shiftLeft i Config.fracBits - fracPart q))
      else .ok (wrap32 (shiftLeft i Config.fracBits + fracPart q))

/-- MIX (R115). -/
def execMix (rd rs1 rs2 rs3 : RegIdx) (s : State) : StepResult :=
  s.conclude rd (mix (s.integer rs1) (s.integer rs2) (s.integer rs3))

/-- RATIO (R116): DIV's function of two integers. -/
def execRatio (rd rs1 rs2 : RegIdx) (s : State) : StepResult :=
  s.conclude rd (fxdiv (s.integer rs1) (s.integer rs2))

end Sys2Proof.Machine
end

