-- ==== Sys2Proof/Machine/Trig.lean ====
section
/-! DEFINITION. Trigonometric functions by the quantized table interpolator (44_trig R180 to R184). -/

namespace Sys2Proof.Machine

/-- The mirroring of R182 for an index already reduced to one circle, 0 to 1439. -/
def lookupReduced (k : Nat) : Int :=
  if k ≤ Config.lastQuarter then qsRom k
  else if k ≤ 2 * Config.lastQuarter then -qsRom (2 * Config.lastQuarter - k)
  else if k ≤ 3 * Config.lastQuarter then -qsRom (k - 2 * Config.lastQuarter)
  else qsRom (4 * Config.lastQuarter - k)

/-- `lookup(k)` (R182): the index is reduced modulo one full circle, then mirrored into the quarter table. -/
def lookup (k : Nat) : Int := lookupReduced (k % (4 * Config.lastQuarter))

/-- The interpolation of R181 between the entries `v1` and `v2` with remainder `t`. -/
def interpolate (v1 v2 : Int) (t : Nat) : Int :=
  if t = 0 then v1 else asr (v1 * (256 - t) + v2 * t + 128) Config.subBits

/-- `cos_mag(m)` (R181). -/
def cosMag (m : Nat) : Int :=
  interpolate (lookup (m / 256)) (lookup (m / 256 + 1)) (m % 256)

/-- COS's function (R180): `cos_mag(|a|)`. -/
def cosRaw (a : Int) : Int := cosMag a.natAbs

/-- SIN's function (R183): `cos_mag(|a - 92160|)`, the cosine shifted by 90 degrees, with no wrap. -/
def sinRaw (a : Int) : Int := cosMag (a - 92160).natAbs

/-- TAN's function (R184): the Scalar quotient of SIN and COS. -/
def tanRaw (a : Int) : Except Cause Int := fxdiv (sinRaw a) (cosRaw a)

/-- COS (R180). -/
def execCos (rd rs1 : RegIdx) (s : State) : StepResult :=
  .next (s.finish rd (ofScalar (cosRaw (s.scalar rs1))))

/-- SIN (R183). -/
def execSin (rd rs1 : RegIdx) (s : State) : StepResult :=
  .next (s.finish rd (ofScalar (sinRaw (s.scalar rs1))))

/-- TAN (R184). -/
def execTan (rd rs1 : RegIdx) (s : State) : StepResult :=
  s.conclude rd (tanRaw (s.scalar rs1))

end Sys2Proof.Machine
end

