-- ==== Sys2Proof/Machine/Dispatch.lean ====
section
/-! DEFINITION. One arm per instruction: the direct call of its meaning (30_encoding R84, R90). -/

namespace Sys2Proof.Machine

def exec (i : Instr) (s : State) : Host.Outcome State Fault Refusal :=
  match i with
  | .add rd rs1 rs2 => Sys2Proof.Machine.execAdd rd rs1 rs2 s
  | .sub rd rs1 rs2 => Sys2Proof.Machine.execSub rd rs1 rs2 s
  | .mul rd rs1 rs2 => Sys2Proof.Machine.execMul rd rs1 rs2 s
  | .div rd rs1 rs2 => Sys2Proof.Machine.execDiv rd rs1 rs2 s
  | .mod rd rs1 rs2 => Sys2Proof.Machine.execMod rd rs1 rs2 s
  | .shl rd rs1 rs2 => Sys2Proof.Machine.execShl rd rs1 rs2 s
  | .shr rd rs1 rs2 => Sys2Proof.Machine.execShr rd rs1 rs2 s
  | .cmpeq rd rs1 rs2 => Sys2Proof.Machine.execCmpeq rd rs1 rs2 s
  | .cmpne rd rs1 rs2 => Sys2Proof.Machine.execCmpne rd rs1 rs2 s
  | .cmplt rd rs1 rs2 => Sys2Proof.Machine.execCmplt rd rs1 rs2 s
  | .cmple rd rs1 rs2 => Sys2Proof.Machine.execCmple rd rs1 rs2 s
  | .cmpgt rd rs1 rs2 => Sys2Proof.Machine.execCmpgt rd rs1 rs2 s
  | .cmpge rd rs1 rs2 => Sys2Proof.Machine.execCmpge rd rs1 rs2 s
  | .fromint rd rs1 => Sys2Proof.Machine.execFromint rd rs1 s
  | .toint rd rs1 => Sys2Proof.Machine.execToint rd rs1 s
  | .mix rd rs1 rs2 rs3 => Sys2Proof.Machine.execMix rd rs1 rs2 rs3 s
  | .ratio rd rs1 rs2 => Sys2Proof.Machine.execRatio rd rs1 rs2 s
  | .narrow rd rs1 rs2 => Sys2Proof.Machine.execNarrow rd rs1 rs2 s
  | .const rd k => Sys2Proof.Machine.execConst rd k s
  | .abs rd rs1 => Sys2Proof.Machine.execAbs rd rs1 s
  | .sign rd rs1 => Sys2Proof.Machine.execSign rd rs1 s
  | .floor rd rs1 => Sys2Proof.Machine.execFloor rd rs1 s
  | .ceil rd rs1 => Sys2Proof.Machine.execCeil rd rs1 s
  | .trunc rd rs1 => Sys2Proof.Machine.execTrunc rd rs1 s
  | .round rd rs1 => Sys2Proof.Machine.execRound rd rs1 s
  | .min rd rs1 rs2 => Sys2Proof.Machine.execMin rd rs1 rs2 s
  | .max rd rs1 rs2 => Sys2Proof.Machine.execMax rd rs1 rs2 s
  | .sqrt rd rs1 => Sys2Proof.Machine.execSqrt rd rs1 s
  | .cos rd rs1 => Sys2Proof.Machine.execCos rd rs1 s
  | .sin rd rs1 => Sys2Proof.Machine.execSin rd rs1 s
  | .tan rd rs1 => Sys2Proof.Machine.execTan rd rs1 s
  | .atan2 rd rs1 rs2 => Sys2Proof.Machine.execAtan2 rd rs1 rs2 s
  | .asin rd rs1 => Sys2Proof.Machine.execAsin rd rs1 s
  | .acos rd rs1 => Sys2Proof.Machine.execAcos rd rs1 s
  | .atan rd rs1 => Sys2Proof.Machine.execAtan rd rs1 s
  | .exp rd rs1 => Sys2Proof.Machine.execExp rd rs1 s
  | .pow rd rs1 rs2 => Sys2Proof.Machine.execPow rd rs1 rs2 s
  | .log2 rd rs1 => Sys2Proof.Machine.execLog2 rd rs1 s
  | .log rd rs1 => Sys2Proof.Machine.execLog rd rs1 s
  | .log10 rd rs1 => Sys2Proof.Machine.execLog10 rd rs1 s
  | .logb rd rs1 rs2 => Sys2Proof.Machine.execLogb rd rs1 rs2 s

end Sys2Proof.Machine
end

