-- ==== Sys2Proof/Machine/HostPort.lean ====
section
/-! DEFINITION. The host transactions (10_state R43 to R49). -/

namespace Sys2Proof.Machine

/-- The host learns what its transaction gave (log entry 4). -/
def State.reply (s : State) (r : Reply) : State := { s with replies := r :: s.replies }

/-- ISSUE(w) (R44): in IDLE it records `w` as the current command and the unit is BUSY; otherwise it has no effect. -/
def hostIssue (w : Word) (s : State) : State :=
  match s.run with
  | .idle => { s with command := w, run := .busy }.reply .accepted
  | .busy | .halted => s.reply .notAccepted

/-- WRITE_REG(i, v) (R45): in IDLE it writes; in BUSY it is not accepted; in HALTED it is accepted with no effect. -/
def hostWriteReg (i : RegIdx) (v : Word) (s : State) : State :=
  match s.run with
  | .idle => (s.writeReg i v).reply .accepted
  | .busy => s.reply .notAccepted
  | .halted => s.reply .accepted

/-- READ_REG(i) (R46): in IDLE or HALTED it returns the register; in BUSY it is not accepted. -/
def hostReadReg (i : RegIdx) (s : State) : State :=
  match s.run with
  | .busy => s.reply .notAccepted
  | .idle | .halted => s.reply (.value (s.readReg i))

/-- READ_CSR(a) (R47): in every run state it returns the CSR. -/
def hostReadCsr (a : BitVec 8) (s : State) : State := s.reply (.value (s.csr a))

/-- RESET (R49), in every run state. -/
def hostReset (s : State) : State := s.resetUnit.reply .accepted

/-- One host transaction (R43). -/
def hostTurn (t : Transaction) (s : State) : State :=
  match t with
  | .issue w => hostIssue w s
  | .writeReg i v => hostWriteReg i v s
  | .readReg i => hostReadReg i s
  | .readCsr a => hostReadCsr a s
  | .reset => hostReset s

end Sys2Proof.Machine
end

