-- ==== Sys2Proof/Machine/Unit.lean ====
section
/-! DEFINITION. The unit's step: completion of the current command (10_state R44, 30_encoding R90). -/

namespace Sys2Proof.Machine

/-- Completion (R90): decode the current command and execute it; an illegal word raises ILLEGAL_INSTRUCTION before
any operand is read (30_encoding R85). -/
def complete (s : State) : StepResult :=
  match decode s.command with
  | .ok i => exec i s
  | .error _ => .next (s.raise .illegalInstruction)

/-- The unit's turn: in BUSY it completes the command (R44); in IDLE it waits for an ISSUE (70_reset_and_hazards
R272) and in HALTED for a RESET (60_exceptions R245), and nothing changes. -/
def unitTurn (s : State) : StepResult :=
  match s.run with
  | .busy => complete s
  | .idle | .halted => .next s

/-- One move of the machine: the next turn is taken off the list and made, the host's one transaction or the unit's
turn; with no turn left it is the unit's (log entry 3). -/
def move (s : State) : StepResult :=
  match s.turns with
  | [] => unitTurn s
  | .unit :: rest => unitTurn { s with turns := rest }
  | .host t :: rest => .next (hostTurn t { s with turns := rest })

end Sys2Proof.Machine
end

