-- ==== Sys2Proof/Machine/Step.lean ====
section
/-! DEFINITION. The step of the machine, and how a command word is placed for it. -/

namespace Sys2Proof.Machine

/-- One step: one move of the unit or of the host (10_state R43). -/
def step (s : State) : Host.Outcome State Fault Refusal := move s

/-- The state with the command word of the low `nbits` bits of `w` as the unit's current command, so that the next
step completes it. There is no instruction memory (20_memory R50): the command is the one an accepted ISSUE would
have recorded (10_state R44; log entry 5). -/
def State.withFetchWord (s : State) (nbits w : Nat) : State := s.withCommand (BitVec.ofNat 32 (w % 2 ^ nbits))

end Sys2Proof.Machine
end

