-- ==== Sys2Proof/Safety.lean ====
section
/-! DEFINITION. What the statements speak of: how a command ends and what it leaves unchanged, the state invariant of
the status registers, and when a run is still healthy. -/

namespace Sys2Proof.Machine

/-- The command of `s` ended normally in `t` (30_encoding R90): `rd` holds `v` (x0 still reads 0, 10_state R31), every
other register is unchanged (R33), the unit is IDLE, and nothing else changed. -/
structure Completed (s t : State) (rd : RegIdx) (v : Word) : Prop where
  /-- The register file: only `rd` is written, and not when it is x0. -/
  regs : ∀ r, t.readReg r = if r = rd ∧ rd ≠ 0#4 then v else s.readReg r
  /-- The run state. -/
  run : t.run = .idle
  /-- The current command. -/
  command : t.command = s.command
  /-- STATUS.CAUSE. -/
  cause : t.cause = s.cause
  /-- FAULTCMD. -/
  faultCmd : t.faultCmd = s.faultCmd
  /-- The turns to come. -/
  turns : t.turns = s.turns
  /-- The host's replies. -/
  replies : t.replies = s.replies
  /-- The counter of free values. -/
  draws : t.draws = s.draws

/-- The command of `s` faulted in `t` with cause `c` (60_exceptions R242): no register changed, CAUSE is `c`, FAULTCMD
is the command word, the unit is HALTED, and nothing else changed. -/
structure Faulted (s t : State) (c : Cause) : Prop where
  /-- The register file. -/
  regs : ∀ r, t.readReg r = s.readReg r
  /-- The run state. -/
  run : t.run = .halted
  /-- The current command. -/
  command : t.command = s.command
  /-- STATUS.CAUSE. -/
  cause : t.cause = some c
  /-- FAULTCMD. -/
  faultCmd : t.faultCmd = s.command
  /-- The turns to come. -/
  turns : t.turns = s.turns
  /-- The host's replies. -/
  replies : t.replies = s.replies
  /-- The counter of free values. -/
  draws : t.draws = s.draws

/-- Executing `i` in `s` answers a next state in which it completed with result `v`. -/
def Completes (i : Instr) (s : State) (v : Word) : Prop :=
  ∃ t, exec i s = .next t ∧ Completed s t i.rd v

/-- Executing `i` in `s` answers a next state in which it faulted with cause `c`. -/
def Faults (i : Instr) (s : State) (c : Cause) : Prop :=
  ∃ t, exec i s = .next t ∧ Faulted s t c

/-- The status invariant: CAUSE is non-zero exactly when the unit is HALTED (10_state R37), and FAULTCMD is 0 while no
fault has happened since reset (R38). -/
abbrev State.StatusInv (s : State) : Prop :=
  (s.cause.isSome ↔ s.run = .halted) ∧ (s.run ≠ .halted → s.faultCmd = 0#32)

/-- A run is healthy while no command has faulted since reset (60_exceptions R245). -/
abbrev State.Healthy (s : State) : Prop := s.run ≠ .halted

/-- The causes R241 lists for each instruction once it is decoded (60_exceptions R241): every instruction not listed
there raises nothing but ILLEGAL_INSTRUCTION at decode. -/
def listedCauses : Instr → List Cause
  | .add _ _ _ => []
  | .sub _ _ _ => []
  | .mul _ _ _ => []
  | .div _ _ _ => [.divideByZero]
  | .mod _ _ _ => [.divideByZero]
  | .shl _ _ _ => []
  | .shr _ _ _ => []
  | .cmpeq _ _ _ => []
  | .cmpne _ _ _ => []
  | .cmplt _ _ _ => []
  | .cmple _ _ _ => []
  | .cmpgt _ _ _ => []
  | .cmpge _ _ _ => []
  | .fromint _ _ => []
  | .toint _ _ => []
  | .mix _ _ _ _ => [.invalidArgument, .divideByZero]
  | .ratio _ _ _ => [.divideByZero]
  | .narrow _ _ _ => []
  | .const _ _ => []
  | .abs _ _ => []
  | .sign _ _ => []
  | .floor _ _ => []
  | .ceil _ _ => []
  | .trunc _ _ => []
  | .round _ _ => []
  | .min _ _ _ => []
  | .max _ _ _ => []
  | .sqrt _ _ => [.domainSqrt]
  | .cos _ _ => []
  | .sin _ _ => []
  | .tan _ _ => [.divideByZero]
  | .atan2 _ _ _ => [.domainAtan2]
  | .asin _ _ => [.domainSqrt]
  | .acos _ _ => [.domainSqrt]
  | .atan _ _ => []
  | .exp _ _ => []
  | .pow _ _ _ => [.divideByZero, .domainLog]
  | .log2 _ _ => [.domainLog]
  | .log _ _ => [.domainLog]
  | .log10 _ _ => [.domainLog]
  | .logb _ _ _ => [.domainLog, .divideByZero]

/-! ## Exact results, in the words of the rules -/

/-- The product of two raws rounded to the nearest raw, ties toward plus infinity, before the wrap (R102). -/
def roundedProduct (a b : Int) : Int := (a * b + 512) / 1024

/-- The quotient of two raws, before the wrap, as R103's corner cases give it for the exact `v = 1024 a / b`:
`floor(v + 1/2)` for `v` not negative, and `v` truncated toward zero for `v` negative. -/
def roundedQuotient (a b : Int) : Int :=
  if 0 ≤ a * b then (2048 * (a.natAbs : Int) + b.natAbs) / (2 * (b.natAbs : Int)) else (1024 * a).tdiv b

/-- `r` is the non-negative raw nearest to the exact root of the raw `p`: `r - 1/2 ≤ sqrt(1024 p) < r + 1/2` (R170). -/
def NearestRoot (p r : Int) : Prop :=
  0 ≤ r ∧ 4096 * p < (2 * r + 1) * (2 * r + 1) ∧ (r = 0 ∨ (2 * r - 1) * (2 * r - 1) ≤ 4096 * p)

/-! ## The ROM contents, written out from the tables of 20_memory once more -/

/-- The table of R53, rows 0 to 170. -/
def listedCosineLow : List Int :=
  [1024, 1024, 1024, 1024, 1024, 1024, 1024, 1024, 1023, 1023,
   1023, 1023, 1023, 1022, 1022, 1022, 1022, 1021, 1021, 1020,
   1020, 1020, 1019, 1019, 1018, 1018, 1017, 1017, 1016, 1016,
   1015, 1015, 1014, 1013, 1013, 1012, 1011, 1011, 1010, 1009,
   1008, 1008, 1007, 1006, 1005, 1004, 1003, 1003, 1002, 1001,
   1000, 999, 998, 997, 996, 995, 994, 992, 991, 990,
   989, 988, 987, 986, 984, 983, 982, 981, 979, 978,
   977, 975, 974, 972, 971, 970, 968, 967, 965, 964,
   962, 961, 959, 958, 956, 954, 953, 951, 949, 948,
   946, 944, 943, 941, 939, 937, 935, 934, 932, 930,
   928, 926, 924, 922, 920, 918, 916, 914, 912, 910,
   908, 906, 904, 902, 900, 898, 896, 893, 891, 889,
   887, 885, 882, 880, 878, 875, 873, 871, 868, 866,
   864, 861, 859, 856, 854, 851, 849, 846, 844, 841,
   839, 836, 834, 831, 828, 826, 823, 820, 818, 815,
   812, 810, 807, 804, 801, 799, 796, 793, 790, 787,
   784, 782, 779, 776, 773, 770, 767, 764, 761, 758,
   755, 752, 749, 746, 743, 740, 737, 733, 730, 727]

/-- The table of R53, rows 180 to 360. -/
def listedCosineHigh : List Int :=
  [724, 721, 718, 715, 711, 708, 705, 702, 698, 695,
   692, 689, 685, 682, 679, 675, 672, 668, 665, 662,
   658, 655, 651, 648, 644, 641, 637, 634, 630, 627,
   623, 620, 616, 613, 609, 606, 602, 598, 595, 591,
   587, 584, 580, 576, 573, 569, 565, 561, 558, 554,
   550, 546, 543, 539, 535, 531, 527, 524, 520, 516,
   512, 508, 504, 500, 496, 493, 489, 485, 481, 477,
   473, 469, 465, 461, 457, 453, 449, 445, 441, 437,
   433, 429, 425, 421, 416, 412, 408, 404, 400, 396,
   392, 388, 384, 379, 375, 371, 367, 363, 359, 354,
   350, 346, 342, 338, 333, 329, 325, 321, 316, 312,
   308, 304, 299, 295, 291, 287, 282, 278, 274, 269,
   265, 261, 256, 252, 248, 243, 239, 235, 230, 226,
   222, 217, 213, 209, 204, 200, 195, 191, 187, 182,
   178, 173, 169, 165, 160, 156, 151, 147, 143, 138,
   134, 129, 125, 120, 116, 111, 107, 103, 98, 94,
   89, 85, 80, 76, 71, 67, 63, 58, 54, 49,
   45, 40, 36, 31, 27, 22, 18, 13, 9, 4,
   0]

/-- The table of R53: the cosine of `0, 0.25, ..., 90` degrees. -/
def listedCosine : List Int := listedCosineLow ++ listedCosineHigh

/-- The table of R54: the arctangent of `2^-i` in degrees. -/
def listedArctangent : List Int := [46080, 27203, 14373, 7296, 3662, 1833, 917, 458, 229, 115, 57, 29]

/-- `g` is the angle the vectoring unit accumulates for `y` and `x` (R196): the pre-rotation into the right half-plane
by the sign of `y`, then the steps 0 to 11 on `X`, `Y` and `ANG`. Both shifts of a step are floor shifts of the values
before it, the sign of `Y` chooses the turn, and once `Y` is 0 nothing changes any more. -/
def VectoringAngle (y x g : Int) : Prop :=
  ∃ X Y A : Nat → Int,
    (X 0, Y 0, A 0) = (if x < 0 then
        if 0 < y then (y, -x, 92160) else if y < 0 then (-y, x, -92160) else (-x, 0, 184320)
      else (x, y, 0)) ∧
    (∀ i, i < 12 →
      (Y i = 0 → X (i + 1) = X i ∧ Y (i + 1) = Y i ∧ A (i + 1) = A i) ∧
      (0 < Y i → X (i + 1) = X i + Y i / 2 ^ i ∧ Y (i + 1) = Y i - X i / 2 ^ i ∧
        A (i + 1) = A i + listedArctangent.getD i 0) ∧
      (Y i < 0 → X (i + 1) = X i - Y i / 2 ^ i ∧ Y (i + 1) = Y i + X i / 2 ^ i ∧
        A (i + 1) = A i - listedArctangent.getD i 0)) ∧
    g = A 12

end Sys2Proof.Machine
end

