-- ==== Sys2Proof/Certificates/Slice0/Obligations.lean ====
section
/-! DEFINITION. The statements, each from the rules its docstring names. `Completes i s v` and `Faults i s c` say that
`exec i s` ANSWERS a next state, and which one: the result register, every other register, the run state and every
other field (Safety.lean). The word each statement decodes is written from the rule's opcode and format. -/

open Sys2Proof Sys2Proof.Machine

/-! ## Scalar arithmetic (40_scalar_arith) -/

/-- R100, R101: ADD and SUB wrap modulo `2^32`. -/
def Obligations.AddSubWrapAround : Prop :=
  ∀ (s : State) (rd rs1 rs2 : RegIdx),
    decode (pack 0x01#8 rd rs1 rs2 0 0) = .ok (.add rd rs1 rs2) ∧
    Completes (.add rd rs1 rs2) s (s.readReg rs1 + s.readReg rs2) ∧
    decode (pack 0x02#8 rd rs1 rs2 0 0) = .ok (.sub rd rs1 rs2) ∧
    Completes (.sub rd rs1 rs2) s (s.readReg rs1 - s.readReg rs2)

/-- R102: MUL is the product rounded to the nearest raw with ties up, wrapped; the widened
product fits 64 bits, the rounding error is at most half a raw, and 1.0 is neutral. -/
def Obligations.MulRoundsToNearest : Prop :=
  ∀ (s : State) (rd rs1 rs2 : RegIdx),
    let a := (s.readReg rs1).toInt
    let b := (s.readReg rs2).toInt
    decode (pack 0x03#8 rd rs1 rs2 0 0) = .ok (.mul rd rs1 rs2) ∧
    Completes (.mul rd rs1 rs2) s (BitVec.ofInt 32 (roundedProduct a b)) ∧
    (-(2 ^ 62) + 2 ^ 31 ≤ a * b ∧ a * b ≤ 2 ^ 62) ∧
    (a * b - 512 < 1024 * roundedProduct a b ∧ 1024 * roundedProduct a b ≤ a * b + 512) ∧
    (b = 1024 → Completes (.mul rd rs1 rs2) s (s.readReg rs1))

/-- R103, R116: DIV and RATIO fault on a zero divisor whatever the dividend; otherwise the quotient is rounded to
nearest, ties up, when it is not negative and truncated when it is negative, then wrapped; the widened dividend fits
64 bits. -/
def Obligations.DivRatioQuotient : Prop :=
  ∀ (s : State) (rd rs1 rs2 : RegIdx),
    let a := (s.readReg rs1).toInt
    let b := (s.readReg rs2).toInt
    decode (pack 0x04#8 rd rs1 rs2 0 0) = .ok (.div rd rs1 rs2) ∧
    decode (pack 0x13#8 rd rs1 rs2 0 0) = .ok (.ratio rd rs1 rs2) ∧
    (2048 * a).natAbs ≤ 2 ^ 42 ∧
    (b = 0 → Faults (.div rd rs1 rs2) s .divideByZero ∧ Faults (.ratio rd rs1 rs2) s .divideByZero) ∧
    (b ≠ 0 → Completes (.div rd rs1 rs2) s (BitVec.ofInt 32 (roundedQuotient a b)) ∧
      Completes (.ratio rd rs1 rs2) s (BitVec.ofInt 32 (roundedQuotient a b)))

/-- R104: MOD faults on a zero divisor; otherwise the result is the remainder with the sign of the dividend, smaller
than the divisor in magnitude. -/
def Obligations.ModSignFollowsDividend : Prop :=
  ∀ (s : State) (rd rs1 rs2 : RegIdx),
    let a := (s.readReg rs1).toInt
    let b := (s.readReg rs2).toInt
    decode (pack 0x05#8 rd rs1 rs2 0 0) = .ok (.mod rd rs1 rs2) ∧
    (b = 0 → Faults (.mod rd rs1 rs2) s .divideByZero) ∧
    (b ≠ 0 → ∃ r k : Int, Completes (.mod rd rs1 rs2) s (BitVec.ofInt 32 r) ∧
      a = k * b + r ∧ r.natAbs < b.natAbs ∧ 0 ≤ r * a)

/-- R105, R106: shifts by the count modulo 32; SHR copies the sign bit in. -/
def Obligations.ShiftsByCountModulo32 : Prop :=
  ∀ (s : State) (rd rs1 rs2 : RegIdx),
    decode (pack 0x06#8 rd rs1 rs2 0 0) = .ok (.shl rd rs1 rs2) ∧
    Completes (.shl rd rs1 rs2) s (s.readReg rs1 <<< ((s.readReg rs2).toNat % 32)) ∧
    decode (pack 0x07#8 rd rs1 rs2 0 0) = .ok (.shr rd rs1 rs2) ∧
    Completes (.shr rd rs1 rs2) s ((s.readReg rs1).sshiftRight ((s.readReg rs2).toNat % 32))

/-- R107 to R112: the six comparisons are signed and write 1 or 0. -/
def Obligations.ComparisonsWriteBoolean : Prop :=
  ∀ (s : State) (rd rs1 rs2 : RegIdx),
    let a := s.readReg rs1
    let b := s.readReg rs2
    (decode (pack 0x08#8 rd rs1 rs2 0 0) = .ok (.cmpeq rd rs1 rs2) ∧
      Completes (.cmpeq rd rs1 rs2) s (if a = b then 1#32 else 0#32)) ∧
    (decode (pack 0x09#8 rd rs1 rs2 0 0) = .ok (.cmpne rd rs1 rs2) ∧
      Completes (.cmpne rd rs1 rs2) s (if a = b then 0#32 else 1#32)) ∧
    (decode (pack 0x0A#8 rd rs1 rs2 0 0) = .ok (.cmplt rd rs1 rs2) ∧
      Completes (.cmplt rd rs1 rs2) s (if a.slt b then 1#32 else 0#32)) ∧
    (decode (pack 0x0B#8 rd rs1 rs2 0 0) = .ok (.cmple rd rs1 rs2) ∧
      Completes (.cmple rd rs1 rs2) s (if a.sle b then 1#32 else 0#32)) ∧
    (decode (pack 0x0C#8 rd rs1 rs2 0 0) = .ok (.cmpgt rd rs1 rs2) ∧
      Completes (.cmpgt rd rs1 rs2) s (if b.slt a then 1#32 else 0#32)) ∧
    (decode (pack 0x0D#8 rd rs1 rs2 0 0) = .ok (.cmpge rd rs1 rs2) ∧
      Completes (.cmpge rd rs1 rs2) s (if b.sle a then 1#32 else 0#32))

/-- R113, R114: FROMINT shifts left by ten with wrap; TOINT is the floor of the value. -/
def Obligations.IntegerConversions : Prop :=
  ∀ (s : State) (rd rs1 : RegIdx),
    decode (pack 0x10#8 rd rs1 0 0 0) = .ok (.fromint rd rs1) ∧
    Completes (.fromint rd rs1) s (s.readReg rs1 <<< 10) ∧
    decode (pack 0x11#8 rd rs1 0 0 0) = .ok (.toint rd rs1) ∧
    ∃ r : Word, Completes (.toint rd rs1) s r ∧
      1024 * r.toInt ≤ (s.readReg rs1).toInt ∧ (s.readReg rs1).toInt < 1024 * r.toInt + 1024

/-- R115: MIX checks the signs of numerator and denominator, then a zero denominator; otherwise the fraction rounded
to nearest and masked to ten bits is added to a non-negative integer part and subtracted from a negative one. -/
def Obligations.MixBuildsMixedNumber : Prop :=
  ∀ (s : State) (rd rs1 rs2 rs3 : RegIdx),
    let i := (s.readReg rs1).toInt
    let n := (s.readReg rs2).toInt
    let d := (s.readReg rs3).toInt
    let f := ((2048 * n + d) / (2 * d)) % 1024
    decode (pack 0x12#8 rd rs1 rs2 rs3 0) = .ok (.mix rd rs1 rs2 rs3) ∧
    (n < 0 ∨ d < 0 → Faults (.mix rd rs1 rs2 rs3) s .invalidArgument) ∧
    (0 ≤ n → d = 0 → Faults (.mix rd rs1 rs2 rs3) s .divideByZero) ∧
    (0 ≤ n → 0 < d → i < 0 → Completes (.mix rd rs1 rs2 rs3) s (BitVec.ofInt 32 (1024 * i - f))) ∧
    (0 ≤ n → 0 < d → 0 ≤ i → Completes (.mix rd rs1 rs2 rs3) s (BitVec.ofInt 32 (1024 * i + f)))

/-! ## Narrowing and constants (41_high_precision) -/

/-- R140, R141: NARROW adds half a unit to the 64-bit pair, wrapping, and keeps bits 53:22. -/
def Obligations.NarrowBiasThenShift : Prop :=
  ∀ (s : State) (rd rs1 rs2 : RegIdx),
    decode (pack 0x18#8 rd rs1 rs2 0 0) = .ok (.narrow rd rs1 rs2) ∧
    Completes (.narrow rd rs1 rs2) s (((s.readReg rs1 ++ s.readReg rs2) + 0x200000#64).extractLsb' 22 32)

/-- R142, R56: CONST writes the named constant of `k`; a `k` above 3 is in no command word. -/
def Obligations.ConstReadsNamedConstant : Prop :=
  ∀ (s : State) (rd : RegIdx) (k : BitVec 8),
    (k = 0 → Completes (.const rd k) s 3217#32) ∧ (k = 1 → Completes (.const rd k) s 2784#32) ∧
    (k = 2 → Completes (.const rd k) s 710#32) ∧ (k = 3 → Completes (.const rd k) s 308#32) ∧
    (k.toNat < 4 → decode (pack 0x19#8 rd 0 0 0 k) = .ok (.const rd k)) ∧
    (4 ≤ k.toNat → decode (pack 0x19#8 rd 0 0 0 k) = .error .mustBeZero)

/-! ## Elementary functions (42_elementary) -/

/-- R150, R151: ABS negates a negative raw, wrapping; SIGN gives -1.0, 0 or 1.0. -/
def Obligations.AbsAndSign : Prop :=
  ∀ (s : State) (rd rs1 : RegIdx),
    let a := s.readReg rs1
    decode (pack 0x20#8 rd rs1 0 0 0) = .ok (.abs rd rs1) ∧
    Completes (.abs rd rs1) s (if a.slt 0#32 then -a else a) ∧
    decode (pack 0x21#8 rd rs1 0 0 0) = .ok (.sign rd rs1) ∧
    Completes (.sign rd rs1) s (if a.slt 0#32 then 0xFFFFFC00#32 else if a = 0#32 then 0#32 else 0x00000400#32)

/-- R152, R153: FLOOR is the largest multiple of 1024 not above the raw; CEIL the smallest not below it, but `-2^31`
where the add wraps. -/
def Obligations.FloorAndCeil : Prop :=
  ∀ (s : State) (rd rs1 : RegIdx),
    let a := (s.readReg rs1).toInt
    decode (pack 0x22#8 rd rs1 0 0 0) = .ok (.floor rd rs1) ∧
    (∃ r : Word, Completes (.floor rd rs1) s r ∧ r.toInt % 1024 = 0 ∧ r.toInt ≤ a ∧ a < r.toInt + 1024) ∧
    decode (pack 0x23#8 rd rs1 0 0 0) = .ok (.ceil rd rs1) ∧
    (a ≤ 2147482624 →
      ∃ r : Word, Completes (.ceil rd rs1) s r ∧ r.toInt % 1024 = 0 ∧ a ≤ r.toInt ∧ r.toInt < a + 1024) ∧
    (2147482624 < a → Completes (.ceil rd rs1) s 0x80000000#32)

/-- R154, R155: TRUNC rounds toward zero; ROUND to the nearest multiple of 1024 with halves up, but `-2^31` where the
add wraps. -/
def Obligations.TruncAndRound : Prop :=
  ∀ (s : State) (rd rs1 : RegIdx),
    let a := (s.readReg rs1).toInt
    decode (pack 0x24#8 rd rs1 0 0 0) = .ok (.trunc rd rs1) ∧
    Completes (.trunc rd rs1) s (BitVec.ofInt 32 (1024 * a.tdiv 1024)) ∧
    decode (pack 0x25#8 rd rs1 0 0 0) = .ok (.round rd rs1) ∧
    (a < 2147483136 →
      ∃ r : Word, Completes (.round rd rs1) s r ∧ r.toInt % 1024 = 0 ∧ r.toInt - 512 ≤ a ∧ a < r.toInt + 512) ∧
    (2147483136 ≤ a → Completes (.round rd rs1) s 0x80000000#32)

/-- R156, R157: MIN and MAX of two signed raws. -/
def Obligations.MinAndMax : Prop :=
  ∀ (s : State) (rd rs1 rs2 : RegIdx),
    decode (pack 0x26#8 rd rs1 rs2 0 0) = .ok (.min rd rs1 rs2) ∧
    Completes (.min rd rs1 rs2) s (BitVec.ofInt 32 (min (s.readReg rs1).toInt (s.readReg rs2).toInt)) ∧
    decode (pack 0x27#8 rd rs1 rs2 0 0) = .ok (.max rd rs1 rs2) ∧
    Completes (.max rd rs1 rs2) s (BitVec.ofInt 32 (max (s.readReg rs1).toInt (s.readReg rs2).toInt))

/-! ## Square root (43_sqrt) -/

/-- R170: SQRT faults on a negative raw, gives 0 for 0, and otherwise the raw nearest to the exact root, in
`[32, 1482910]`. -/
def Obligations.SqrtIsNearestRoot : Prop :=
  ∀ (s : State) (rd rs1 : RegIdx),
    let a := (s.readReg rs1).toInt
    decode (pack 0x28#8 rd rs1 0 0 0) = .ok (.sqrt rd rs1) ∧
    (a < 0 → Faults (.sqrt rd rs1) s .domainSqrt) ∧
    (a = 0 → Completes (.sqrt rd rs1) s 0#32) ∧
    (0 < a → ∃ r : Int, Completes (.sqrt rd rs1) s (BitVec.ofInt 32 r) ∧ NearestRoot a r ∧ 32 ≤ r ∧ r ≤ 1482910)

/-- R171, R172: on its operands the Newton unit gives the integer part of the root, and six evaluations are enough:
no cap of 6 or more changes the result. -/
def Obligations.NewtonGivesFloorRootInSix : Prop :=
  ∀ n : Nat, 1 ≤ n → n < 2 ^ 43 →
    isqrtNewton n = Nat.sqrt n ∧ ∀ cap, 6 ≤ cap → newtonLoop n cap (newtonStart n) = Nat.sqrt n

/-- R173: the square of a square root, taken by SQRT and then MUL, differs from the operand by at most 1449 raws. -/
def Obligations.SqrtSquaredWithinBound : Prop :=
  ∀ (s : State) (rd re rs1 : RegIdx), rd ≠ 0#4 → re ≠ 0#4 → 0 ≤ (s.readReg rs1).toInt →
    ∃ t u, exec (.sqrt rd rs1) s = .next t ∧ exec (.mul re rd rd) t = .next u ∧
      ((u.readReg re).toInt - (s.readReg rs1).toInt).natAbs ≤ 1449

/-! ## Trigonometric functions (44_trig) and their tables (20_memory) -/

/-- R53 to R56: the entries of the four ROMs, at every index. The cosine table falls from 1.0 to 0, and the angles sum
to 102252. -/
def Obligations.RomEntriesAreListed : Prop :=
  (∀ k, k ≤ 360 → listedCosine[k]? = some (qsRom k)) ∧
  qsRom 0 = 1024 ∧ qsRom 360 = 0 ∧ (∀ k, k < 360 → qsRom (k + 1) ≤ qsRom k) ∧
  (∀ i, i < 12 → listedArctangent[i]? = some (atanRom i)) ∧ listedArctangent.sum = 102252 ∧
  invFactRom 2 = 512 ∧ invFactRom 3 = 171 ∧ invFactRom 4 = 43 ∧ invFactRom 5 = 9 ∧ invFactRom 6 = 1 ∧
  constRom 0 = 3217 ∧ constRom 1 = 2784 ∧ constRom 2 = 710 ∧ constRom 3 = 308

/-- R182: the table lookup has the period and the symmetries of a full circle of 1440 steps, over the quarter table. -/
def Obligations.LookupMirrorsQuarterTable : Prop :=
  ∀ k : Nat,
    lookup (k + 1440) = lookup k ∧
    (k ≤ 360 → lookup k = qsRom k) ∧
    (k ≤ 720 → lookup (720 - k) = -lookup k) ∧
    (k ≤ 1440 → lookup (1440 - k) = lookup k)

/-- R180, R181, R183: COS and SIN complete on every angle, with the table interpolated at `|a|` and at `|a - 92160|`
(no wrap), half a unit added before the floor shift; the result is in `[-1024, 1024]`. -/
def Obligations.CosSinInterpolateTable : Prop :=
  ∀ (s : State) (rd rs1 : RegIdx),
    let a := (s.readReg rs1).toInt
    let at_ := fun m : Nat =>
      (lookup (m / 256) * (256 - (m % 256 : Nat)) + lookup (m / 256 + 1) * (m % 256 : Nat) + 128) / 256
    decode (pack 0x30#8 rd rs1 0 0 0) = .ok (.cos rd rs1) ∧
    Completes (.cos rd rs1) s (BitVec.ofInt 32 (at_ a.natAbs)) ∧ (at_ a.natAbs).natAbs ≤ 1024 ∧
    decode (pack 0x31#8 rd rs1 0 0 0) = .ok (.sin rd rs1) ∧
    Completes (.sin rd rs1) s (BitVec.ofInt 32 (at_ (a - 92160).natAbs))

/-- 44_trig, from R180 to R183: the cosine is even, has the period of 360 degrees and stays in `[-1024, 1024]`, and the
sine is the cosine 90 degrees earlier. -/
def Obligations.CosineEvenPeriodicBounded : Prop :=
  ∀ a : Int,
    cosRaw (-a) = cosRaw a ∧ cosRaw (a + 368640) = cosRaw a ∧ -1024 ≤ cosRaw a ∧ cosRaw a ≤ 1024 ∧
      sinRaw a = cosRaw (a - 92160)

/-- R184: TAN faults exactly in the two bands where the cosine is 0; elsewhere it completes with the quotient of sine
and cosine, which never wraps. -/
def Obligations.TanFaultsWhereCosineIsZero : Prop :=
  ∀ (s : State) (rd rs1 : RegIdx),
    let a := (s.readReg rs1).toInt
    let m := a.natAbs % 368640
    let band := (92129 ≤ m ∧ m ≤ 92192) ∨ (276448 ≤ m ∧ m ≤ 276511)
    decode (pack 0x32#8 rd rs1 0 0 0) = .ok (.tan rd rs1) ∧
    (cosRaw a = 0 ↔ band) ∧
    (band → Faults (.tan rd rs1) s .divideByZero) ∧
    (¬ band → Completes (.tan rd rs1) s (BitVec.ofInt 32 (roundedQuotient (sinRaw a) (cosRaw a))) ∧
      (roundedQuotient (sinRaw a) (cosRaw a)).natAbs ≤ 1048576)

/-- R185: the squares of sine and cosine, each by the Scalar multiply, sum to within 1 raw of 1.0 on the table grid and
within 3 raws everywhere. -/
def Obligations.SquaresSumNearOne : Prop :=
  ∀ d : Int,
    let e := fxmul (sinRaw d) (sinRaw d) + fxmul (cosRaw d) (cosRaw d) - 1024
    e.natAbs ≤ 3 ∧ (d % 256 = 0 → e.natAbs ≤ 1)

/-! ## Inverse trigonometric functions (45_inverse_trig) -/

/-- R195, R196, R199: ATAN2 faults exactly when both operands are 0 and otherwise gives the vectoring angle, the sum of
R196's steps, in `[-194412, 194412]`; ATAN is the angle against 1.0 and never faults; the axis and diagonal cases. -/
def Obligations.Atan2IsVectoringAngle : Prop :=
  ∀ (s : State) (rd rs1 rs2 : RegIdx),
    let y := (s.readReg rs1).toInt
    let x := (s.readReg rs2).toInt
    decode (pack 0x38#8 rd rs1 rs2 0 0) = .ok (.atan2 rd rs1 rs2) ∧
    decode (pack 0x3B#8 rd rs1 0 0 0) = .ok (.atan rd rs1) ∧
    (y = 0 ∧ x = 0 → Faults (.atan2 rd rs1 rs2) s .domainAtan2) ∧
    (¬ (y = 0 ∧ x = 0) → Completes (.atan2 rd rs1 rs2) s (BitVec.ofInt 32 (cordicVec y x))) ∧
    VectoringAngle y x (cordicVec y x) ∧ VectoringAngle y 1024 (cordicVec y 1024) ∧
    (cordicVec y x).natAbs ≤ 194412 ∧
    Completes (.atan rd rs1) s (BitVec.ofInt 32 (cordicVec y 1024)) ∧
    (y = 0 → 0 < x → cordicVec y x = 0) ∧ (y = 0 → x < 0 → cordicVec y x = 184320) ∧
    (0 < y → x = y → cordicVec y x = 46080)

/-- R196: from any operands and after any number of steps, `X` and `Y` are below `2^33` in magnitude and `ANG` is in
`[-194412, 194412]`, so the 64-bit registers never overflow. -/
def Obligations.CordicNeverOverflows : Prop :=
  ∀ (y x : Word) (n : Nat), n ≤ 12 →
    let c := cordicLoop n 0 (preRotate y.toInt x.toInt)
    c.x.natAbs < 2 ^ 33 ∧ c.y.natAbs < 2 ^ 33 ∧ c.ang.natAbs ≤ 194412

/-- R196 to R198, R200: ASIN and ACOS take the root of the wrapped product `(1 + v)(1 - v)`: they fault together when it
is negative, and otherwise give the vectoring angles of the operand and the nearest root. -/
def Obligations.AsinAcosThroughWrappedRoot : Prop :=
  ∀ (s : State) (rd rs1 : RegIdx),
    let a := s.readReg rs1
    let p := (BitVec.ofInt 32 (roundedProduct (1024#32 + a).toInt (1024#32 - a).toInt)).toInt
    decode (pack 0x39#8 rd rs1 0 0 0) = .ok (.asin rd rs1) ∧
    decode (pack 0x3A#8 rd rs1 0 0 0) = .ok (.acos rd rs1) ∧
    (p < 0 → Faults (.asin rd rs1) s .domainSqrt ∧ Faults (.acos rd rs1) s .domainSqrt) ∧
    (0 ≤ p → ∃ r : Int, NearestRoot p r ∧
      VectoringAngle a.toInt r (cordicVec a.toInt r) ∧ VectoringAngle r a.toInt (cordicVec r a.toInt) ∧
      Completes (.asin rd rs1) s (BitVec.ofInt 32 (cordicVec a.toInt r)) ∧
      Completes (.acos rd rs1) s (BitVec.ofInt 32 (cordicVec r a.toInt)))

/-- R200: the inherited domain: no fault for `|v| ≤ 1.0`, and DOMAIN_SQRT for `1.0 < |v| ≤ 1482910`. -/
def Obligations.AsinAcosDomain : Prop :=
  ∀ (s : State) (rd rs1 : RegIdx),
    let v := (s.readReg rs1).toInt
    (v.natAbs ≤ 1024 → (∃ w, Completes (.asin rd rs1) s w) ∧ ∃ w, Completes (.acos rd rs1) s w) ∧
    (1024 < v.natAbs → v.natAbs ≤ 1482910 →
      Faults (.asin rd rs1) s .domainSqrt ∧ Faults (.acos rd rs1) s .domainSqrt)

/-! ## Power and exponential (46_pow_exp) -/

/-- R211: base 1.0 or exponent 0 gives 1.0, before any other test. -/
def Obligations.PowOfOneOrZeroExponent : Prop :=
  ∀ (s : State) (rd rs1 rs2 : RegIdx), (s.readReg rs1).toInt = 1024 ∨ s.readReg rs2 = 0#32 →
    decode (pack 0x41#8 rd rs1 rs2 0 0) = .ok (.pow rd rs1 rs2) ∧ Completes (.pow rd rs1 rs2) s 1024#32

/-- R211 to R213: when POW is not 1.0 at once, an integer exponent faults exactly for base 0 and a negative exponent, a
fractional exponent exactly for a base that is not positive, each with its cause; all others complete. -/
def Obligations.PowFaultsExactly : Prop :=
  ∀ (s : State) (rd rs1 rs2 : RegIdx),
    let b := (s.readReg rs1).toInt
    let x := (s.readReg rs2).toInt
    b ≠ 1024 → x ≠ 0 →
    (x % 1024 = 0 → b = 0 → x < 0 → Faults (.pow rd rs1 rs2) s .divideByZero) ∧
    (x % 1024 = 0 → ¬ (b = 0 ∧ x < 0) → ∃ v, Completes (.pow rd rs1 rs2) s v) ∧
    (x % 1024 ≠ 0 → b ≤ 0 → Faults (.pow rd rs1 rs2) s .domainLog) ∧
    (x % 1024 ≠ 0 → 0 < b → ∃ v, Completes (.pow rd rs1 rs2) s v)

/-- R212 with 90_conflicts C6: a whole-number base to a whole, non-negative exponent is the exact power, wrapped. -/
def Obligations.PowOfIntegersIsExact : Prop :=
  ∀ (s : State) (rd rs1 rs2 : RegIdx) (m : Int) (n : Nat),
    (s.readReg rs1).toInt = 1024 * m → (s.readReg rs2).toInt = 1024 * (n : Int) →
    Completes (.pow rd rs1 rs2) s (BitVec.ofInt 32 (1024 * m ^ n))

/-- R212: POW at a whole exponent `n` other than 0, for every base but 1.0: a negative `n` first takes the rounded
quotient of 1.0 and the base, which faults for base 0; then, from the lowest bit of `|n|` up, one rounded and wrapped
multiply for each set bit and one rounded and wrapped squaring for each bit. -/
def Obligations.PowWholeIsSquareAndMultiply : Prop :=
  ∀ (s : State) (rd rs1 rs2 : RegIdx),
    let b := (s.readReg rs1).toInt
    let x := (s.readReg rs2).toInt
    let n := x / 1024
    let mul := fun p q : Int => (BitVec.ofInt 32 (roundedProduct p q)).toInt
    x % 1024 = 0 → x ≠ 0 → b ≠ 1024 →
    (n < 0 → b = 0 → Faults (.pow rd rs1 rs2) s .divideByZero) ∧
    (¬ (n < 0 ∧ b = 0) → ∃ base r : Nat → Int,
      base 0 = (if n < 0 then (BitVec.ofInt 32 (roundedQuotient 1024 b)).toInt else b) ∧ r 0 = 1024 ∧
      (∀ j, j < 22 → base (j + 1) = mul (base j) (base j)) ∧
      (∀ j, j < 22 → r (j + 1) = if n.natAbs.testBit j then mul (r j) (base j) else r j) ∧
      n.natAbs < 2 ^ 22 ∧
      Completes (.pow rd rs1 rs2) s (BitVec.ofInt 32 (r 22)))

/-- R212: the exponentiation makes at most 22 passes: no larger bound changes its result. -/
def Obligations.PowLoopWithinBound : Prop :=
  ∀ (r base : Int) (n cap : Nat), n ≤ 2 ^ 21 → 22 ≤ cap → powLoop cap r base n = powLoop 22 r base n

/-- R213, R214: with a fractional exponent, a base that is not positive raises DOMAIN_LOG, and a positive one (other
than 1.0) gives the Taylor series in `ln 2` times the fraction of `exponent * log2(base)`, each product rounded and none
wrapping, shifted by the integer part. -/
def Obligations.PowFractionalIsSeries : Prop :=
  ∀ (s : State) (rd re rs1 rs2 : RegIdx),
    let b := (s.readReg rs1).toInt
    let x := (s.readReg rs2).toInt
    x % 1024 ≠ 0 → b ≠ 1024 →
    (b ≤ 0 → Faults (.pow rd rs1 rs2) s .domainLog) ∧
    (0 < b → ∃ lb : Int, Completes (.log2 re rs1) s (BitVec.ofInt 32 lb) ∧ -10240 ≤ lb ∧ lb ≤ 21503 ∧
      let t := (BitVec.ofInt 32 (roundedProduct x lb)).toInt
      let z := roundedProduct (t % 1024) 710
      let p2 := roundedProduct z z
      let p3 := roundedProduct p2 z
      let p4 := roundedProduct p3 z
      let p5 := roundedProduct p4 z
      let p6 := roundedProduct p5 z
      let e := 1024 + z + roundedProduct p2 512 + roundedProduct p3 171 + roundedProduct p4 43
        + roundedProduct p5 9 + roundedProduct p6 1
      0 ≤ z ∧ z ≤ 709 ∧ (∀ p ∈ [p2, p3, p4, p5, p6], 0 ≤ p ∧ p ≤ 709) ∧ 1024 ≤ e ∧ e ≤ 2047 ∧
      (0 ≤ t / 1024 → Completes (.pow rd rs1 rs2) s (BitVec.ofInt 32 (e * 2 ^ (t / 1024).toNat))) ∧
      (t / 1024 < 0 → Completes (.pow rd rs1 rs2) s (BitVec.ofInt 32 (e / 2 ^ (-(t / 1024)).toNat))))

/-- R210: EXP never faults, and it is POW with the ROM's e, 2784, as base. -/
def Obligations.ExpIsPowOfRomE : Prop :=
  ∀ (s : State) (rd rs1 : RegIdx),
    decode (pack 0x40#8 rd rs1 0 0 0) = .ok (.exp rd rs1) ∧
    (∃ v, Completes (.exp rd rs1) s v) ∧
    ∀ rb : RegIdx, s.readReg rb = 2784#32 → exec (.exp rd rs1) s = exec (.pow rd rb rs1) s

/-! ## Logarithms (47_log) -/

/-- R225, R226: LOG2 faults on a non-positive raw. Otherwise, with `e` the floor of the exact logarithm and `x 0` the
raw normalised by `e` into `[1, 2)`, ten rounded squarings give one fraction bit each, by the threshold 2.0. -/
def Obligations.Log2ExtractsBits : Prop :=
  ∀ (s : State) (rd rs1 : RegIdx),
    let v := (s.readReg rs1).toInt
    let e : Int := (Nat.log2 v.toNat : Int) - 10
    decode (pack 0x48#8 rd rs1 0 0 0) = .ok (.log2 rd rs1) ∧
    (v ≤ 0 → Faults (.log2 rd rs1) s .domainLog) ∧
    (0 < v → ∃ x : Nat → Int,
      x 0 = (if 0 ≤ e then v / 2 ^ e.toNat else v * 2 ^ (-e).toNat) ∧
      (∀ j, j ≤ 10 → 1024 ≤ x j ∧ x j < 2048) ∧
      (∀ j, j < 10 → x (j + 1) =
        if 2048 ≤ roundedProduct (x j) (x j) then roundedProduct (x j) (x j) / 2 else roundedProduct (x j) (x j)) ∧
      Completes (.log2 rd rs1) s (BitVec.ofInt 32 (1024 * e +
        ∑ j ∈ Finset.range 10, if 2048 ≤ roundedProduct (x j) (x j) then 2 ^ (9 - j) else 0)))

/-- R226: LOG2 lies in `[-10240, 21503]`, its integer part is the floor of the exact logarithm, and powers of two are
exact. -/
def Obligations.Log2IntegerPartIsFloor : Prop :=
  ∀ (s : State) (rd rs1 : RegIdx),
    let v := (s.readReg rs1).toInt
    0 < v → ∃ r : Int, Completes (.log2 rd rs1) s (BitVec.ofInt 32 r) ∧ -10240 ≤ r ∧ r ≤ 21503 ∧
      r / 1024 + 10 = Nat.log2 v.toNat ∧ (∀ k : Nat, v = 2 ^ k → r = 1024 * ((k : Int) - 10))

/-- R227, R228: LOG and LOG10 are LOG2's result times the ROM's ln 2 and log10 2, rounded; they fault as LOG2. -/
def Obligations.LogAndLog10ScaleLog2 : Prop :=
  ∀ (s : State) (rd re rs1 : RegIdx),
    let v := (s.readReg rs1).toInt
    decode (pack 0x49#8 rd rs1 0 0 0) = .ok (.log rd rs1) ∧
    decode (pack 0x4A#8 rd rs1 0 0 0) = .ok (.log10 rd rs1) ∧
    (v ≤ 0 → Faults (.log rd rs1) s .domainLog ∧ Faults (.log10 rd rs1) s .domainLog) ∧
    (0 < v → ∃ l : Int, Completes (.log2 re rs1) s (BitVec.ofInt 32 l) ∧ -10240 ≤ l ∧ l ≤ 21503 ∧
      Completes (.log rd rs1) s (BitVec.ofInt 32 (roundedProduct l 710)) ∧
      Completes (.log10 rd rs1) s (BitVec.ofInt 32 (roundedProduct l 308)))

/-- R229: LOGB looks at the value first, then compares the base with 2.0, the ROM's e and 10.0, and otherwise divides
the two logarithms; base 1.0 is the only positive base whose logarithm is 0. -/
def Obligations.LogbByBase : Prop :=
  ∀ (s : State) (rd re rf rs1 rs2 : RegIdx),
    let v := (s.readReg rs1).toInt
    let b := (s.readReg rs2).toInt
    decode (pack 0x4B#8 rd rs1 rs2 0 0) = .ok (.logb rd rs1 rs2) ∧
    (v ≤ 0 → Faults (.logb rd rs1 rs2) s .domainLog) ∧
    (0 < v → b ≤ 0 → Faults (.logb rd rs1 rs2) s .domainLog) ∧
    (0 < v → b = 1024 → Faults (.logb rd rs1 rs2) s .divideByZero) ∧
    (0 < v → 0 < b → b ≠ 1024 →
      ∃ lv lb : Int, Completes (.log2 re rs1) s (BitVec.ofInt 32 lv) ∧ -10240 ≤ lv ∧ lv ≤ 21503 ∧
        Completes (.log2 rf rs2) s (BitVec.ofInt 32 lb) ∧ -10240 ≤ lb ∧ lb ≤ 21503 ∧ lb ≠ 0 ∧
        Completes (.logb rd rs1 rs2) s (BitVec.ofInt 32
          (if b = 2048 then lv else if b = 2784 then roundedProduct lv 710
           else if b = 10240 then roundedProduct lv 308 else roundedQuotient lv lb)))

/-- R215, its first band: LOG2 after POW of base 2.0 recovers every exponent in `[0, 21)` to within 2 raws. -/
def Obligations.Log2RecoversPowOfTwo : Prop :=
  ∀ (s : State) (rd re rs1 rs2 : RegIdx), rd ≠ 0#4 → re ≠ 0#4 → s.readReg rs1 = 2048#32 →
    0 ≤ (s.readReg rs2).toInt → (s.readReg rs2).toInt < 21504 →
    ∃ t u, exec (.pow rd rs1 rs2) s = .next t ∧ exec (.log2 re rd) t = .next u ∧
      ((u.readReg re).toInt - (s.readReg rs2).toInt).natAbs ≤ 2

/-! ## Encoding (30_encoding) -/

/-- The encoding examples and decode vectors written out from R80, R81 and R84 (a sanity statement): one word of each
family and three illegal words. -/
def Obligations.SpecWordsDecode : Prop :=
  decode 0x01312000#32 = .ok (.add 3 1 2) ∧ decode 0x12123400#32 = .ok (.mix 1 2 3 4) ∧
  decode 0x18312000#32 = .ok (.narrow 3 1 2) ∧ decode 0x19500001#32 = .ok (.const 5 1) ∧
  decode 0x25BA0000#32 = .ok (.round 11 10) ∧ decode 0x28870000#32 = .ok (.sqrt 8 7) ∧
  decode 0x32930000#32 = .ok (.tan 9 3) ∧ decode 0x38943000#32 = .ok (.atan2 9 4 3) ∧
  decode 0x41413000#32 = .ok (.pow 4 1 3) ∧ decode 0x48760000#32 = .ok (.log2 7 6) ∧
  decode 0x01756001#32 = .error .mustBeZero ∧ decode 0x19900004#32 = .error .mustBeZero ∧
  decode 0xF0000000#32 = .error .unassignedOpcode

/-- R82, R83, R84: decoding the word of a well-formed instruction gives it back, every field at every value. -/
def Obligations.DecodeOfEncode : Prop := ∀ i : Instr, i.wf = true → decode (encode i) = .ok i

/-- R85, R89: a word that decodes is the word of exactly the instruction it decodes to, which is well-formed: no bit is
ignored, so every other word is illegal. -/
def Obligations.DecodeAcceptsOnlyEncodings : Prop :=
  ∀ (w : Word) (i : Instr), decode w = .ok i → i.wf = true ∧ encode i = w

/-- R88: the words of NOP, MOV, NEG and CLR decode to their expansions, and do nothing, copy, negate with wrap, and
clear. -/
def Obligations.PseudoInstructions : Prop :=
  ∀ (s : State) (d r : RegIdx),
    decode 0x01000000#32 = .ok (.add 0 0 0) ∧
    (∃ t, exec (.add 0 0 0) s = .next t ∧ ∀ q, t.readReg q = s.readReg q) ∧
    decode (0x01000000#32 ||| (d.setWidth 32 <<< 20) ||| (r.setWidth 32 <<< 16)) = .ok (.add d r 0) ∧
    Completes (.add d r 0) s (s.readReg r) ∧
    decode (0x02000000#32 ||| (d.setWidth 32 <<< 20) ||| (r.setWidth 32 <<< 12)) = .ok (.sub d 0 r) ∧
    Completes (.sub d 0 r) s (-s.readReg r) ∧
    decode (0x01000000#32 ||| (d.setWidth 32 <<< 20)) = .ok (.add d 0 0) ∧
    Completes (.add d 0 0) s 0#32

/-! ## Every command (30_encoding R90, 60_exceptions) -/

/-- R90, R242: every instruction in every state completes, writing its destination only, or faults, writing no register:
no other effect and no other end. -/
def Obligations.EveryCommandCompletesOrFaults : Prop :=
  ∀ (i : Instr) (s : State), (∃ v, Completes i s v) ∨ ∃ c, Faults i s c

/-- R31: x0 reads 0 in every state, and an instruction whose destination is x0 changes no register. -/
def Obligations.ZeroRegisterIsHardwired : Prop :=
  ∀ (i : Instr) (s : State), s.readReg 0#4 = 0#32 ∧
    (i.rd = 0#4 → ∃ t, exec i s = .next t ∧ t.regs = s.regs)

/-- R241: a decoded instruction faults only with the causes the table lists for it; those the table does not list never
fault. -/
def Obligations.OnlyListedCauses : Prop :=
  ∀ (i : Instr) (s : State) (c : Cause), i.wf = true → Faults i s c → c ∈ listedCauses i

/-- R279: the result and the fault of a command depend on the registers it reads only. -/
def Obligations.ResultDependsOnSourcesOnly : Prop :=
  ∀ (i : Instr) (s s' : State), (∀ r ∈ i.sources, s'.readReg r = s.readReg r) →
    (∀ v, Completes i s v → Completes i s' v) ∧ (∀ c, Faults i s c → Faults i s' c)

/-! ## The machine: steps, status and host (10_state, 70_reset_and_hazards) -/

/-- R44, R90: at the unit's turn in BUSY, when the command word decodes to an instruction, the step is that
instruction's execution, the turn taken off the list; with no turn left it is the unit's turn too.
The list of turns is the model's choice (log entry 3). -/
def Obligations.StepRunsDecodedCommand : Prop :=
  ∀ (s : State) (i : Instr), s.run = .busy → decode s.command = .ok i →
    (∀ rest, s.turns = .unit :: rest → step s = exec i { s with turns := rest }) ∧
    (s.turns = [] → step s = exec i s)

/-- R85, R242: at the unit's turn in BUSY (with no turn left it is the unit's turn too), a word that is no instruction's
encoding faults with ILLEGAL_INSTRUCTION, code 1, and writes no register. The list of turns is the model's choice (log entry 3). -/
def Obligations.IllegalWordFaults : Prop :=
  ∀ s : State, s.run = .busy → (∀ i : Instr, i.wf = true → encode i ≠ s.command) →
    (∀ rest, s.turns = .unit :: rest →
      ∃ t, step s = .next t ∧ Faulted { s with turns := rest } t .illegalInstruction ∧
        (t.csr 0x00#8).extractLsb' 8 8 = 1#8) ∧
    (s.turns = [] →
      ∃ t, step s = .next t ∧ Faulted s t .illegalInstruction ∧ (t.csr 0x00#8).extractLsb' 8 8 = 1#8)

/-- R278: every step of the machine answers a next state, from every state: no command and no transaction hangs. That
a step is one turn, and that the unit's turn outside BUSY changes nothing, is the model's choice (log entry 3). -/
def Obligations.EveryStepAnswers : Prop := ∀ s : State, ∃ t, step s = .next t

/-- R37, R38, R242, R246: every step keeps the status invariant: CAUSE is non-zero exactly in HALTED, and FAULTCMD is 0
before a fault. -/
def Obligations.StepKeepsStatusInv : Prop :=
  ∀ s t : State, s.StatusInv → step s = .next t → t.StatusInv

/-- R42: what reset leaves, of the values the spec gives, and the status invariant. -/
def Obligations.ResetState : Prop :=
  State.reset.run = .idle ∧ State.reset.csr 0x00#8 = 0#32 ∧ State.reset.csr 0x01#8 = 0#32 ∧
    State.reset.csr 0x02#8 = 0x0110020A#32 ∧ State.reset.readReg 0 = 0#32 ∧ State.reset.StatusInv

/-- R37, R241: in a state that keeps the status invariant, the fields of STATUS: BUSY, HALTED, never both, CAUSE at most
6 and non-zero exactly when HALTED, the code of R241's table for each cause, and every reserved bit 0. -/
def Obligations.StatusRegisterFields : Prop :=
  ∀ s : State, s.StatusInv →
    let w := s.csr 0x00#8
    (w.getLsbD 0 = true ↔ s.run = .busy) ∧ (w.getLsbD 1 = true ↔ s.run = .halted) ∧
    ¬ (w.getLsbD 0 = true ∧ w.getLsbD 1 = true) ∧
    w.extractLsb' 2 6 = 0#6 ∧ w.extractLsb' 16 16 = 0#16 ∧
    (w.extractLsb' 8 8).toNat ≤ 6 ∧ (w.extractLsb' 8 8 ≠ 0#8 ↔ w.getLsbD 1 = true) ∧
    (s.cause = none → w.extractLsb' 8 8 = 0#8) ∧
    (s.cause = some .illegalInstruction → w.extractLsb' 8 8 = 1#8) ∧
    (s.cause = some .divideByZero → w.extractLsb' 8 8 = 2#8) ∧
    (s.cause = some .domainSqrt → w.extractLsb' 8 8 = 3#8) ∧
    (s.cause = some .domainLog → w.extractLsb' 8 8 = 4#8) ∧
    (s.cause = some .domainAtan2 → w.extractLsb' 8 8 = 5#8) ∧
    (s.cause = some .invalidArgument → w.extractLsb' 8 8 = 6#8)

/-- R36, R245, R246: in HALTED, a step that is not a RESET keeps the unit HALTED, with every register, CAUSE and
FAULTCMD as they were. The list of turns is the model's choice (log entry 3). -/
def Obligations.HaltedUntilReset : Prop :=
  ∀ s t : State, s.run = .halted → s.turns.head? ≠ some (.host .reset) → step s = .next t →
    t.run = .halted ∧ t.regs = s.regs ∧ t.cause = s.cause ∧ t.faultCmd = s.faultCmd

/-- R44: ISSUE is accepted in IDLE only, where it records the word and makes the unit BUSY; elsewhere it changes
nothing of the unit. The list of turns and the replies are the model's choice (log entries 3 and 4). -/
def Obligations.IssueOnlyWhenIdle : Prop :=
  ∀ (s : State) (w : Word) (rest : List Turn), s.turns = .host (.issue w) :: rest →
    (s.run = .idle →
      step s = .next { s with turns := rest, command := w, run := .busy, replies := .accepted :: s.replies }) ∧
    (s.run ≠ .idle → step s = .next { s with turns := rest, replies := .notAccepted :: s.replies })

/-- R31, R45: WRITE_REG writes the register in IDLE (nothing for x0), is not accepted in BUSY, and is accepted with no
effect in HALTED. The list of turns and the replies are the model's choice (log entries 3 and 4). -/
def Obligations.WriteRegByRunState : Prop :=
  ∀ (s : State) (i : RegIdx) (v : Word) (rest : List Turn), s.turns = .host (.writeReg i v) :: rest →
    (s.run = .idle → ∃ t, step s = .next t ∧ t.run = .idle ∧ t.replies = .accepted :: s.replies ∧
      t.cause = s.cause ∧ t.faultCmd = s.faultCmd ∧
      ∀ r, t.readReg r = if r = i ∧ i ≠ 0#4 then v else s.readReg r) ∧
    (s.run = .busy → step s = .next { s with turns := rest, replies := .notAccepted :: s.replies }) ∧
    (s.run = .halted → step s = .next { s with turns := rest, replies := .accepted :: s.replies })

/-- R46, R47, R39, R40: the reads return the register in IDLE or HALTED (not accepted in BUSY) and the CSR in every run
state (STATUS, FAULTCMD, CONFIG, 0 when reserved), and change nothing of the unit.
The list of turns and the replies are the model's choice (log entries 3 and 4). -/
def Obligations.ReadsChangeNothing : Prop :=
  ∀ (s : State) (rest : List Turn),
    (∀ i, s.turns = .host (.readReg i) :: rest →
      (s.run ≠ .busy → step s = .next { s with turns := rest, replies := .value (s.readReg i) :: s.replies }) ∧
      (s.run = .busy → step s = .next { s with turns := rest, replies := .notAccepted :: s.replies })) ∧
    (∀ a, s.turns = .host (.readCsr a) :: rest →
      ∃ w, step s = .next { s with turns := rest, replies := .value w :: s.replies } ∧
        (a = 0x00#8 → w = s.statusWord) ∧ (a = 0x01#8 → w = s.faultCmd) ∧ (a = 0x02#8 → w = 0x0110020A#32) ∧
        (3 ≤ a.toNat → w = 0#32))

/-- R46: in IDLE, a WRITE_REG of x1 to x15 and then a READ_REG of the same register, with no command between, returns
the value written. The list of turns and the replies are the model's choice (log entries 3 and 4). -/
def Obligations.WriteThenReadRoundTrip : Prop :=
  ∀ (s : State) (i : RegIdx) (v : Word) (rest : List Turn), s.run = .idle → i ≠ 0#4 →
    s.turns = .host (.writeReg i v) :: .host (.readReg i) :: rest →
    ∃ t, core.run 2 s = .next t ∧ t.replies = .value v :: .accepted :: s.replies

/-- R49, R42, R271: RESET from every run state leaves IDLE, STATUS 0 and FAULTCMD 0, whatever was executing; nothing is
said of x1 to x15, which the spec leaves unspecified. The list of turns and the replies are the model's choice (log entries 3 and 4). -/
def Obligations.ResetTransaction : Prop :=
  ∀ (s : State) (rest : List Turn), s.turns = .host .reset :: rest →
    ∃ t, step s = .next t ∧ t.run = .idle ∧ t.csr 0x00#8 = 0#32 ∧ t.csr 0x01#8 = 0#32 ∧
      t.csr 0x02#8 = 0x0110020A#32 ∧ t.readReg 0 = 0#32 ∧ t.turns = rest ∧ t.replies = .accepted :: s.replies

/-- R277: however long the host polls STATUS before the unit's turn, the command ends the same: the unit's state and
registers are those of the command completed at once. The list of turns and the replies are the model's choice (log entries 3 and 4). -/
def Obligations.PollingDoesNotChangeResult : Prop :=
  ∀ (s u : State) (n : Nat) (rest : List Turn), s.run = .busy →
    s.turns = List.replicate n (.host (.readCsr 0x00#8)) ++ .unit :: rest →
    step { s with turns := .unit :: rest } = .next u →
    ∃ t, core.run (n + 1) s = .next t ∧ t.regs = u.regs ∧ t.run = u.run ∧ t.cause = u.cause ∧
      t.faultCmd = u.faultCmd ∧ t.turns = u.turns
end

