-- ==== Sys2Proof/Laws/Arith.lean ====
section
/-! SUPPORT. The wrap, the shifts and the Scalar helpers in the library's terms (00_scope R11 to R13; 40_scalar_arith
R102, R103), and their link to the registers' patterns. -/

namespace Sys2Proof.Machine

/-- `wrap32` is the library's balanced remainder. -/
theorem wrap32_eq_bmod (v : Int) : wrap32 v = v.bmod (2 ^ 32) := by
  simp only [wrap32, Int.bmod]
  split <;> omega

/-- `wrap64` is the library's balanced remainder. -/
theorem wrap64_eq_bmod (v : Int) : wrap64 v = v.bmod (2 ^ 64) := by
  simp only [wrap64, Int.bmod]
  split <;> omega

theorem wrap32_range (v : Int) : -2147483648 ≤ wrap32 v ∧ wrap32 v < 2147483648 := by
  simp only [wrap32]; omega

/-- A value in the signed 32-bit range is unchanged. -/
theorem wrap32_of_range {v : Int} (h : -2147483648 ≤ v) (h' : v < 2147483648) : wrap32 v = v := by
  simp only [wrap32]; omega

/-- Wrapping changes a value by a multiple of `2^32`. -/
theorem wrap32_emod (v : Int) : wrap32 v % 4294967296 = v % 4294967296 := by
  simp only [wrap32]; omega

theorem wrap32_wrap32 (v : Int) : wrap32 (wrap32 v) = wrap32 v :=
  wrap32_of_range (wrap32_range v).1 (wrap32_range v).2

/-- Values that agree modulo `2^32` wrap alike. -/
theorem wrap32_congr {v w : Int} (h : v % 4294967296 = w % 4294967296) : wrap32 v = wrap32 w := by
  simp only [wrap32]; omega

/-- A result's pattern read back as signed is the wrapped result. -/
theorem ofScalar_toInt (v : Int) : (ofScalar v).toInt = wrap32 v := by
  rw [ofScalar, BitVec.toInt_ofInt, wrap32_eq_bmod]

/-- The pattern of a result does not change when the result is wrapped first. -/
theorem ofScalar_wrap32 (v : Int) : ofScalar (wrap32 v) = ofScalar v := by
  apply BitVec.eq_of_toInt_eq
  rw [ofScalar_toInt, ofScalar_toInt, wrap32_wrap32]

/-- A register's own value writes the register's pattern. -/
theorem ofScalar_self (w : Word) : ofScalar w.toInt = w := by
  simp [ofScalar]

/-- A register read as signed is in the Scalar range. -/
theorem toInt_range (w : Word) : -2147483648 ≤ w.toInt ∧ w.toInt < 2147483648 :=
  ⟨by simpa using BitVec.le_toInt w, by simpa using @BitVec.toInt_lt _ w⟩

/-- `>>` is the floor of the quotient by the power of two. -/
theorem asr_eq (v : Int) (n : Nat) : asr v n = v / 2 ^ n := by
  simp [asr]

/-- `<<` is the product by the power of two. -/
theorem shiftLeft_eq (v : Int) (n : Nat) : shiftLeft v n = v * 2 ^ n := by
  simp [shiftLeft]

@[simp] theorem asr_zero_count (v : Int) : asr v 0 = v := by simp [asr]

/-- `fxmul` without its named parts. -/
theorem fxmul_eq (a b : Int) : fxmul a b = wrap32 ((a * b + 512) / 1024) := by
  simp [fxmul, asr]

theorem fxmul_range (a b : Int) : -2147483648 ≤ fxmul a b ∧ fxmul a b < 2147483648 := wrap32_range _

/-- `trem` is the library's truncated remainder. -/
theorem trem_eq (a b : Int) : trem a b = a.tmod b := by
  have := Int.tdiv_mul_add_tmod a b
  simp only [trem, tdiv]; omega

/-- A zero divisor raises, whatever the dividend (R103). -/
@[simp] theorem fxdiv_zero (a : Int) : fxdiv a 0 = .error .divideByZero := rfl

/-- `fxdiv` of a non-zero divisor, without its named parts. -/
theorem fxdiv_ok {a b : Int} (h : b ≠ 0) : fxdiv a b = .ok (wrap32 (((a * 2048).tdiv b + 1) / 2)) := by
  simp [fxdiv, h, asr, tdiv, shiftLeft]

end Sys2Proof.Machine
end

