-- ==== Sys2Proof/Laws/Encoding.lean ====
section
/-! SUPPORT. The fields of a packed word and the must-be-zero masks (30_encoding R80, R81): what decoding and encoding
proofs cite. -/

namespace Sys2Proof

/-- Concatenation as numbers: the high part is scaled by the low part's width (00_scope R10). -/
theorem append_toNat {m n : Nat} (x : BitVec m) (y : BitVec n) : (x ++ y).toNat = x.toNat * 2 ^ n + y.toNat := by
  rw [BitVec.toNat_append, ← Nat.shiftLeft_add_eq_or_of_lt y.isLt, Nat.shiftLeft_eq]

/-- A packed word as a number, each field at its place. -/
theorem pack_toNat (op : BitVec 8) (d a b c : RegIdx) (k : BitVec 8) :
    (pack op d a b c k).toNat = op.toNat * 16777216 + d.toNat * 1048576 + a.toNat * 65536 + b.toNat * 4096
      + c.toNat * 256 + k.toNat := by
  have h : (pack op d a b c k).toNat = (op ++ d ++ a ++ b ++ c ++ k : BitVec (8 + 4 + 4 + 4 + 4 + 8)).toNat := rfl
  rw [h]
  simp only [append_toNat]
  omega

section Fields

variable (op : BitVec 8) (d a b c : RegIdx) (k : BitVec 8)

@[simp] theorem opcodeOf_pack : opcodeOf (pack op d a b c k) = op := by
  apply BitVec.eq_of_toNat_eq
  have := op.isLt; have := d.isLt; have := a.isLt; have := b.isLt; have := c.isLt; have := k.isLt
  simp only [opcodeOf, BitVec.extractLsb'_toNat, pack_toNat, Nat.shiftRight_eq_div_pow]
  omega

@[simp] theorem rdOf_pack : rdOf (pack op d a b c k) = d := by
  apply BitVec.eq_of_toNat_eq
  have := d.isLt; have := a.isLt; have := b.isLt; have := c.isLt; have := k.isLt
  simp only [rdOf, BitVec.extractLsb'_toNat, pack_toNat, Nat.shiftRight_eq_div_pow]
  omega

@[simp] theorem rs1Of_pack : rs1Of (pack op d a b c k) = a := by
  apply BitVec.eq_of_toNat_eq
  have := a.isLt; have := b.isLt; have := c.isLt; have := k.isLt
  simp only [rs1Of, BitVec.extractLsb'_toNat, pack_toNat, Nat.shiftRight_eq_div_pow]
  omega

@[simp] theorem rs2Of_pack : rs2Of (pack op d a b c k) = b := by
  apply BitVec.eq_of_toNat_eq
  have := b.isLt; have := c.isLt; have := k.isLt
  simp only [rs2Of, BitVec.extractLsb'_toNat, pack_toNat, Nat.shiftRight_eq_div_pow]
  omega

@[simp] theorem rs3Of_pack : rs3Of (pack op d a b c k) = c := by
  apply BitVec.eq_of_toNat_eq
  have := c.isLt; have := k.isLt
  simp only [rs3Of, BitVec.extractLsb'_toNat, pack_toNat, Nat.shiftRight_eq_div_pow]
  omega

@[simp] theorem immOf_pack : immOf (pack op d a b c k) = k := by
  apply BitVec.eq_of_toNat_eq
  have := k.isLt
  simp only [immOf, BitVec.extractLsb'_toNat, pack_toNat, Nat.shiftRight_eq_div_pow]
  omega

/-- Masking acts field by field. -/
theorem pack_and (op' : BitVec 8) (d' a' b' c' : RegIdx) (k' : BitVec 8) :
    pack op d a b c k &&& pack op' d' a' b' c' k' =
      pack (op &&& op') (d &&& d') (a &&& a') (b &&& b') (c &&& c') (k &&& k') := by
  have h : (op ++ d ++ a ++ b ++ c ++ k : BitVec (8 + 4 + 4 + 4 + 4 + 8)) &&& (op' ++ d' ++ a' ++ b' ++ c' ++ k')
      = (op &&& op') ++ (d &&& d') ++ (a &&& a') ++ (b &&& b') ++ (c &&& c') ++ (k &&& k') := by
    simp only [BitVec.and_append]
  exact h

/-- Two packed words are equal exactly when their fields are. -/
theorem pack_inj (op' : BitVec 8) (d' a' b' c' : RegIdx) (k' : BitVec 8) :
    pack op d a b c k = pack op' d' a' b' c' k' ↔ op = op' ∧ d = d' ∧ a = a' ∧ b = b' ∧ c = c' ∧ k = k' := by
  constructor
  · intro h
    exact ⟨by simpa using congrArg opcodeOf h, by simpa using congrArg rdOf h, by simpa using congrArg rs1Of h,
      by simpa using congrArg rs2Of h, by simpa using congrArg rs3Of h, by simpa using congrArg immOf h⟩
  · rintro ⟨rfl, rfl, rfl, rfl, rfl, rfl⟩; rfl

end Fields

/-- Every word is the packing of its six fields: they cover all 32 bits (R80). -/
theorem pack_eta (w : Word) : pack (opcodeOf w) (rdOf w) (rs1Of w) (rs2Of w) (rs3Of w) (immOf w) = w := by
  apply BitVec.eq_of_toNat_eq
  have := w.isLt
  simp only [pack_toNat, opcodeOf, rdOf, rs1Of, rs2Of, rs3Of, immOf, BitVec.extractLsb'_toNat,
    Nat.shiftRight_eq_div_pow]
  omega

/-! ## The must-be-zero bits, format by format (R81) -/

theorem and_ones4 (a : BitVec 4) : a &&& 0xF#4 = a := by revert a; decide
theorem and_ones8 (a : BitVec 8) : a &&& 0xFF#8 = a := by revert a; decide

theorem and_mustBeZeroR2 (w : Word) : w &&& mustBeZeroR2 = 0#32 ↔ rs2Of w = 0#4 ∧ rs3Of w = 0#4 ∧ immOf w = 0#8 := by
  rw [show mustBeZeroR2 = pack 0 0 0 0xF 0xF 0xFF by decide, show 0#32 = pack 0 0 0 0 0 0 by decide]
  conv_lhs => rw [← pack_eta w]
  rw [pack_and, pack_inj]
  simp [and_ones4, and_ones8]

theorem and_mustBeZeroR3 (w : Word) : w &&& mustBeZeroR3 = 0#32 ↔ rs3Of w = 0#4 ∧ immOf w = 0#8 := by
  rw [show mustBeZeroR3 = pack 0 0 0 0 0xF 0xFF by decide, show 0#32 = pack 0 0 0 0 0 0 by decide]
  conv_lhs => rw [← pack_eta w]
  rw [pack_and, pack_inj]
  simp [and_ones4, and_ones8]

theorem and_mustBeZeroR4 (w : Word) : w &&& mustBeZeroR4 = 0#32 ↔ immOf w = 0#8 := by
  rw [show mustBeZeroR4 = pack 0 0 0 0 0 0xFF by decide, show 0#32 = pack 0 0 0 0 0 0 by decide]
  conv_lhs => rw [← pack_eta w]
  rw [pack_and, pack_inj]
  simp [and_ones8]

theorem and_mustBeZeroK (w : Word) :
    w &&& mustBeZeroK = 0#32 ↔ rs1Of w = 0#4 ∧ rs2Of w = 0#4 ∧ rs3Of w = 0#4 ∧ (immOf w).toNat < 4 := by
  have hk : ∀ k : BitVec 8, k &&& 0xFC#8 = 0#8 ↔ k.toNat < 4 := by decide
  rw [show mustBeZeroK = pack 0 0 0xF 0xF 0xF 0xFC by decide, show 0#32 = pack 0 0 0 0 0 0 by decide]
  conv_lhs => rw [← pack_eta w]
  rw [pack_and, pack_inj]
  simp [and_ones4, hk]

/-! ## What each format's decoder answers -/

/-- A checked instruction is answered exactly when the must-be-zero bits are clear. -/
theorem checked_eq_ok {m w : Word} {i j : Instr} : checked m w i = .ok j ↔ w &&& m = 0#32 ∧ i = j := by
  unfold checked; split <;> simp_all

@[simp] theorem decodeR2_pack (mk) (op : BitVec 8) (d a : RegIdx) : decodeR2 mk (pack op d a 0#4 0#4 0#8) = .ok (mk d a) := by
  simp [decodeR2, checked, and_mustBeZeroR2]

@[simp] theorem decodeR3_pack (mk) (op : BitVec 8) (d a b : RegIdx) :
    decodeR3 mk (pack op d a b 0#4 0#8) = .ok (mk d a b) := by
  simp [decodeR3, checked, and_mustBeZeroR3]

@[simp] theorem decodeR4_pack (mk) (op : BitVec 8) (d a b c : RegIdx) :
    decodeR4 mk (pack op d a b c 0#8) = .ok (mk d a b c) := by
  simp [decodeR4, checked, and_mustBeZeroR4]

/-- Format K answers for `k` in 0 to 3 only. -/
theorem decodeK_pack (mk) (op : BitVec 8) (d : RegIdx) (k : BitVec 8) :
    decodeK mk (pack op d 0#4 0#4 0#4 k) = if k.toNat < 4 then .ok (mk d k) else .error .mustBeZero := by
  simp [decodeK, checked, and_mustBeZeroK]

end Sys2Proof
end

