-- ==== Sys2Proof/Laws/State.lean ====
section
/-! SUPPORT. What each update of the state does to each field, one lemma a field, so that no proof unfolds a record. -/

namespace Sys2Proof.Machine

/-! ## writeReg -/

@[simp] theorem writeReg_run (s : State) (r v) : (s.writeReg r v).run = s.run := by
  unfold State.writeReg; split <;> rfl
@[simp] theorem writeReg_command (s : State) (r v) : (s.writeReg r v).command = s.command := by
  unfold State.writeReg; split <;> rfl
@[simp] theorem writeReg_cause (s : State) (r v) : (s.writeReg r v).cause = s.cause := by
  unfold State.writeReg; split <;> rfl
@[simp] theorem writeReg_faultCmd (s : State) (r v) : (s.writeReg r v).faultCmd = s.faultCmd := by
  unfold State.writeReg; split <;> rfl
@[simp] theorem writeReg_turns (s : State) (r v) : (s.writeReg r v).turns = s.turns := by
  unfold State.writeReg; split <;> rfl
@[simp] theorem writeReg_replies (s : State) (r v) : (s.writeReg r v).replies = s.replies := by
  unfold State.writeReg; split <;> rfl
@[simp] theorem writeReg_draws (s : State) (r v) : (s.writeReg r v).draws = s.draws := by
  unfold State.writeReg; split <;> rfl

/-- x0 has no storage: writing it changes nothing (R31). -/
@[simp] theorem writeReg_zero (s : State) (v) : s.writeReg 0#4 v = s := rfl

/-! ## finish -/

@[simp] theorem finish_regs (s : State) (rd v) : (s.finish rd v).regs = (s.writeReg rd v).regs := rfl
@[simp] theorem finish_run (s : State) (rd v) : (s.finish rd v).run = .idle := rfl
@[simp] theorem finish_command (s : State) (rd v) : (s.finish rd v).command = s.command := writeReg_command s rd v
@[simp] theorem finish_cause (s : State) (rd v) : (s.finish rd v).cause = s.cause := writeReg_cause s rd v
@[simp] theorem finish_faultCmd (s : State) (rd v) : (s.finish rd v).faultCmd = s.faultCmd := writeReg_faultCmd s rd v
@[simp] theorem finish_turns (s : State) (rd v) : (s.finish rd v).turns = s.turns := writeReg_turns s rd v
@[simp] theorem finish_replies (s : State) (rd v) : (s.finish rd v).replies = s.replies := writeReg_replies s rd v
@[simp] theorem finish_draws (s : State) (rd v) : (s.finish rd v).draws = s.draws := writeReg_draws s rd v

/-! ## raise -/

@[simp] theorem raise_regs (s : State) (c) : (s.raise c).regs = s.regs := rfl
@[simp] theorem raise_run (s : State) (c) : (s.raise c).run = .halted := rfl
@[simp] theorem raise_command (s : State) (c) : (s.raise c).command = s.command := rfl
@[simp] theorem raise_cause (s : State) (c) : (s.raise c).cause = some c := rfl
@[simp] theorem raise_faultCmd (s : State) (c) : (s.raise c).faultCmd = s.command := rfl
@[simp] theorem raise_turns (s : State) (c) : (s.raise c).turns = s.turns := rfl
@[simp] theorem raise_replies (s : State) (c) : (s.raise c).replies = s.replies := rfl
@[simp] theorem raise_draws (s : State) (c) : (s.raise c).draws = s.draws := rfl

/-! ## resetUnit -/

@[simp] theorem resetUnit_run (s : State) : s.resetUnit.run = .idle := rfl
@[simp] theorem resetUnit_command (s : State) : s.resetUnit.command = 0#32 := rfl
@[simp] theorem resetUnit_cause (s : State) : s.resetUnit.cause = none := rfl
@[simp] theorem resetUnit_faultCmd (s : State) : s.resetUnit.faultCmd = 0#32 := rfl
@[simp] theorem resetUnit_turns (s : State) : s.resetUnit.turns = s.turns := rfl
@[simp] theorem resetUnit_replies (s : State) : s.resetUnit.replies = s.replies := rfl
@[simp] theorem resetUnit_draws (s : State) : s.resetUnit.draws = s.draws + 15 := rfl

/-! ## reply -/

@[simp] theorem reply_regs (s : State) (r) : (s.reply r).regs = s.regs := rfl
@[simp] theorem reply_run (s : State) (r) : (s.reply r).run = s.run := rfl
@[simp] theorem reply_command (s : State) (r) : (s.reply r).command = s.command := rfl
@[simp] theorem reply_cause (s : State) (r) : (s.reply r).cause = s.cause := rfl
@[simp] theorem reply_faultCmd (s : State) (r) : (s.reply r).faultCmd = s.faultCmd := rfl
@[simp] theorem reply_turns (s : State) (r) : (s.reply r).turns = s.turns := rfl
@[simp] theorem reply_replies (s : State) (r) : (s.reply r).replies = r :: s.replies := rfl
@[simp] theorem reply_draws (s : State) (r) : (s.reply r).draws = s.draws := rfl

/-! ## withCommand -/

@[simp] theorem withCommand_regs (s : State) (w) : (s.withCommand w).regs = s.regs := rfl
@[simp] theorem withCommand_run (s : State) (w) : (s.withCommand w).run = .busy := rfl
@[simp] theorem withCommand_command (s : State) (w) : (s.withCommand w).command = w := rfl
@[simp] theorem withCommand_cause (s : State) (w) : (s.withCommand w).cause = none := rfl
@[simp] theorem withCommand_faultCmd (s : State) (w) : (s.withCommand w).faultCmd = 0#32 := rfl
@[simp] theorem withCommand_turns (s : State) (w) : (s.withCommand w).turns = .unit :: s.turns := rfl
@[simp] theorem withCommand_replies (s : State) (w) : (s.withCommand w).replies = s.replies := rfl
@[simp] theorem withCommand_draws (s : State) (w) : (s.withCommand w).draws = s.draws := rfl

/-! ## Reading registers -/

/-- x0 reads 0 in every state (R31). -/
@[simp] theorem readReg_zero (s : State) : s.readReg 0#4 = 0#32 := rfl

/-- A register's value depends on the register file alone. -/
theorem readReg_congr {s t : State} (h : t.regs = s.regs) (r : RegIdx) : t.readReg r = s.readReg r := by
  simp only [State.readReg, h]

/-- Read after write: the register written, unless it is x0, reads the value, and every other is unchanged. -/
theorem readReg_writeReg (s : State) (rd : RegIdx) (v : Word) (r : RegIdx) :
    (s.writeReg rd v).readReg r = if r = rd ∧ rd ≠ 0#4 then v else s.readReg r := by
  by_cases hd : rd = 0#4
  · subst hd; simp
  by_cases hr : r = 0#4
  · subst hr
    have : ¬ (0#4 = rd) := fun h => hd h.symm
    simp [this]
  · have hd' : 0 < rd.toNat := Nat.pos_of_ne_zero fun h => hd (BitVec.eq_of_toNat_eq h)
    have hr' : 0 < r.toNat := Nat.pos_of_ne_zero fun h => hr (BitVec.eq_of_toNat_eq h)
    simp only [State.readReg, State.writeReg, hd, hr, if_false, ne_eq, not_false_eq_true, and_true,
      Vector.getElem_set]
    by_cases h : r = rd
    · simp [h]
    · have : rd.toNat - 1 ≠ r.toNat - 1 := fun e => h (BitVec.eq_of_toNat_eq (by omega))
      simp [h, this]

@[simp] theorem readReg_raise (s : State) (c) (r : RegIdx) : (s.raise c).readReg r = s.readReg r :=
  readReg_congr rfl r
@[simp] theorem readReg_reply (s : State) (a) (r : RegIdx) : (s.reply a).readReg r = s.readReg r :=
  readReg_congr rfl r
@[simp] theorem readReg_withCommand (s : State) (w) (r : RegIdx) : (s.withCommand w).readReg r = s.readReg r :=
  readReg_congr rfl r

/-- Taking a turn off the list changes no register. -/
@[simp] theorem readReg_turns (s : State) (ts) (r : RegIdx) : State.readReg { s with turns := ts } r = s.readReg r :=
  readReg_congr rfl r

/-- The registers after a completion. -/
theorem readReg_finish (s : State) (rd : RegIdx) (v : Word) (r : RegIdx) :
    (s.finish rd v).readReg r = if r = rd ∧ rd ≠ 0#4 then v else s.readReg r :=
  (readReg_congr (s := s.writeReg rd v) rfl r).trans (readReg_writeReg s rd v r)

/-- Two register files that read alike are equal. -/
theorem regs_ext {s t : State} (h : ∀ r, t.readReg r = s.readReg r) : t.regs = s.regs := by
  ext i hi
  have := h (BitVec.ofNat 4 (i + 1))
  have hn : (BitVec.ofNat 4 (i + 1)).toNat = i + 1 := by
    simp only [BitVec.toNat_ofNat]; omega
  have hz : BitVec.ofNat 4 (i + 1) ≠ 0#4 := fun e => by
    have := congrArg BitVec.toNat e
    rw [hn] at this; simp at this
  simp only [State.readReg, hz, if_false, hn, Nat.add_sub_cancel] at this
  exact congrArg (fun w : Word => w.getLsbD _) this

end Sys2Proof.Machine
end

