-- ==== Sys2Proof/Laws/Exec.lean ====
section
/-! SUPPORT. Everything the shared operations can do, said once: completion, fault entry, a command, and the moves of
the machine. Proofs cite these instead of unfolding `exec`. -/

namespace Sys2Proof.Machine

/-- Completion, with its frame (30_encoding R90). -/
theorem completed_finish (s : State) (rd : RegIdx) (v : Word) : Completed s (s.finish rd v) rd v where
  regs := readReg_finish s rd v
  run := rfl
  command := by simp
  cause := by simp
  faultCmd := by simp
  turns := by simp
  replies := by simp
  draws := by simp

/-- Fault entry, with its frame (60_exceptions R242). -/
theorem faulted_raise (s : State) (c : Cause) : Faulted s (s.raise c) c where
  regs := readReg_raise s c
  run := rfl
  command := rfl
  cause := rfl
  faultCmd := rfl
  turns := rfl
  replies := rfl
  draws := rfl

/-- An instruction whose meaning finishes with `v` completes with `v`. -/
theorem completes_of_finish {i : Instr} {s : State} {v : Word} (h : exec i s = .next (s.finish i.rd v)) :
    Completes i s v := ⟨_, h, completed_finish s i.rd v⟩

/-- An instruction whose meaning raises `c` faults with `c`. -/
theorem faults_of_raise {i : Instr} {s : State} {c : Cause} (h : exec i s = .next (s.raise c)) : Faults i s c :=
  ⟨_, h, faulted_raise s c⟩

@[simp] theorem conclude_ok (s : State) (rd : RegIdx) (v : Int) :
    s.conclude rd (.ok v) = .next (s.finish rd (ofScalar v)) := rfl

@[simp] theorem conclude_error (s : State) (rd : RegIdx) (c : Cause) : s.conclude rd (.error c) = .next (s.raise c) := rfl

/-- The two ends of a command that may raise. -/
theorem conclude_ends (s : State) (rd : RegIdx) (r : Except Cause Int) :
    (∃ v, s.conclude rd r = .next (s.finish rd v)) ∨ ∃ c, s.conclude rd r = .next (s.raise c) := by
  cases r with
  | ok v => exact .inl ⟨_, rfl⟩
  | error c => exact .inr ⟨c, rfl⟩

/-- Every command finishes with some result or raises some cause: there is no third end. -/
theorem exec_ends (i : Instr) (s : State) :
    (∃ v, exec i s = .next (s.finish i.rd v)) ∨ ∃ c, exec i s = .next (s.raise c) := by
  cases i with
  | div rd _ _ | mod rd _ _ | mix rd _ _ _ | ratio rd _ _ | const rd _ | sqrt rd _ | tan rd _ | atan2 rd _ _
  | asin rd _ | acos rd _ | atan rd _ | exp rd _ | pow rd _ _ | log2 rd _ | log rd _ | log10 rd _
  | logb rd _ _ => exact conclude_ends s rd _
  | _ => exact .inl ⟨_, rfl⟩

/-- A finished state has no fault status of its own making; a raised one is HALTED: the two ends never meet. -/
theorem finish_ne_raise (s : State) (rd : RegIdx) (v : Word) (c : Cause) : s.finish rd v ≠ s.raise c := fun h => by
  have := congrArg State.run h
  simp at this

/-! ## Moves -/

/-- With no turn left it is the unit's turn. -/
theorem step_no_turns {s : State} (h : s.turns = []) : step s = unitTurn s := by
  simp [step, move, h]

/-- The unit's turn is taken off the list. -/
theorem step_unit {s : State} {rest : List Turn} (h : s.turns = .unit :: rest) :
    step s = unitTurn { s with turns := rest } := by
  simp [step, move, h]

/-- A host transaction is taken off the list and always answers. -/
theorem step_host {s : State} {t : Transaction} {rest : List Turn} (h : s.turns = .host t :: rest) :
    step s = .next (hostTurn t { s with turns := rest }) := by
  simp [step, move, h]

/-- Outside BUSY the unit's turn changes nothing. -/
theorem unitTurn_waits {s : State} (h : s.run ≠ .busy) : unitTurn s = .next s := by
  unfold unitTurn
  split
  · exact absurd ‹_› h
  · rfl
  · rfl

/-- In BUSY the unit's turn completes the command: it executes what the word decodes to, or the word is illegal. -/
theorem unitTurn_busy {s : State} (h : s.run = .busy) :
    (∃ i, decode s.command = .ok i ∧ unitTurn s = exec i s) ∨
      ∃ e, decode s.command = .error e ∧ unitTurn s = .next (s.raise .illegalInstruction) := by
  cases hd : decode s.command with
  | ok i => exact .inl ⟨i, rfl, by simp [unitTurn, h, complete, hd]⟩
  | error e => exact .inr ⟨e, rfl, by simp [unitTurn, h, complete, hd]⟩

/-- A placed command is completed by the next step, the state being otherwise as it was (log entry 5). -/
theorem step_withFetchWord (s : State) (nbits w : Nat) :
    step (s.withFetchWord nbits w) =
      unitTurn { s.withFetchWord nbits w with turns := s.turns } :=
  step_unit rfl

end Sys2Proof.Machine
end

