-- ==== Sys2Proof/Laws/PerInstr.lean ====
section
/-! SUPPORT. The per-instruction family: every encoding meets its row of opcode_table.json (30_encoding R84). -/

namespace Sys2Proof.Laws

/-- The word of a well-formed instruction has its opcode in bits 31:24 and zero in every must-be-zero bit of its
format: under the instruction's mask it is the instruction's match (R84). -/
def EncodingMatch.Statement (i : Instr) : Prop := i.wf = true → encode i &&& i.mask = i.opcodeMatch

namespace EncodingMatch

/-- The mask of a format as packed fields, and a packed word under it. -/
theorem packed_mask (m : Word) (op : BitVec 8) (d a b c a' b' c' : RegIdx) (k k' : BitVec 8)
    (hm : 0xFF000000#32 ||| m = pack 0xFF 0 a' b' c' k') (ha : a &&& a' = 0) (hb : b &&& b' = 0) (hc : c &&& c' = 0)
    (hk : k &&& k' = 0) : pack op d a b c k &&& (0xFF000000#32 ||| m) = pack op 0 0 0 0 0 := by
  have hop : op &&& 0xFF = op := and_ones8 op
  rw [hm, pack_and, ha, hb, hc, hk, hop, pack_inj]
  simp

theorem r2 (op : BitVec 8) (d a : RegIdx) :
    pack op d a 0 0 0 &&& (0xFF000000#32 ||| mustBeZeroR2) = pack op 0 0 0 0 0 :=
  packed_mask _ op d a 0 0 0 0xF 0xF 0 0xFF (by decide) (by simp) (by simp) (by simp) (by simp)

theorem r3 (op : BitVec 8) (d a b : RegIdx) :
    pack op d a b 0 0 &&& (0xFF000000#32 ||| mustBeZeroR3) = pack op 0 0 0 0 0 :=
  packed_mask _ op d a b 0 0 0 0xF 0 0xFF (by decide) (by simp) (by simp) (by simp) (by simp)

theorem r4 (op : BitVec 8) (d a b c : RegIdx) :
    pack op d a b c 0 &&& (0xFF000000#32 ||| mustBeZeroR4) = pack op 0 0 0 0 0 :=
  packed_mask _ op d a b c 0 0 0 0 0xFF (by decide) (by simp) (by simp) (by simp) (by simp)

theorem k (op : BitVec 8) (d : RegIdx) (k : BitVec 8) (hk : k.toNat < 4) :
    pack op d 0 0 0 k &&& (0xFF000000#32 ||| mustBeZeroK) = pack op 0 0 0 0 0 :=
  packed_mask _ op d 0 0 0 0xF 0xF 0xF k 0xFC (by decide) (by simp) (by simp) (by simp)
    (by revert k; decide)

theorem add (rd rs1 rs2 : RegIdx) : Statement (.add rd rs1 rs2) := fun _ => (r3 _ rd rs1 rs2).trans rfl
theorem sub (rd rs1 rs2 : RegIdx) : Statement (.sub rd rs1 rs2) := fun _ => (r3 _ rd rs1 rs2).trans rfl
theorem mul (rd rs1 rs2 : RegIdx) : Statement (.mul rd rs1 rs2) := fun _ => (r3 _ rd rs1 rs2).trans rfl
theorem div (rd rs1 rs2 : RegIdx) : Statement (.div rd rs1 rs2) := fun _ => (r3 _ rd rs1 rs2).trans rfl
theorem mod (rd rs1 rs2 : RegIdx) : Statement (.mod rd rs1 rs2) := fun _ => (r3 _ rd rs1 rs2).trans rfl
theorem shl (rd rs1 rs2 : RegIdx) : Statement (.shl rd rs1 rs2) := fun _ => (r3 _ rd rs1 rs2).trans rfl
theorem shr (rd rs1 rs2 : RegIdx) : Statement (.shr rd rs1 rs2) := fun _ => (r3 _ rd rs1 rs2).trans rfl
theorem cmpeq (rd rs1 rs2 : RegIdx) : Statement (.cmpeq rd rs1 rs2) := fun _ => (r3 _ rd rs1 rs2).trans rfl
theorem cmpne (rd rs1 rs2 : RegIdx) : Statement (.cmpne rd rs1 rs2) := fun _ => (r3 _ rd rs1 rs2).trans rfl
theorem cmplt (rd rs1 rs2 : RegIdx) : Statement (.cmplt rd rs1 rs2) := fun _ => (r3 _ rd rs1 rs2).trans rfl
theorem cmple (rd rs1 rs2 : RegIdx) : Statement (.cmple rd rs1 rs2) := fun _ => (r3 _ rd rs1 rs2).trans rfl
theorem cmpgt (rd rs1 rs2 : RegIdx) : Statement (.cmpgt rd rs1 rs2) := fun _ => (r3 _ rd rs1 rs2).trans rfl
theorem cmpge (rd rs1 rs2 : RegIdx) : Statement (.cmpge rd rs1 rs2) := fun _ => (r3 _ rd rs1 rs2).trans rfl
theorem fromint (rd rs1 : RegIdx) : Statement (.fromint rd rs1) := fun _ => (r2 _ rd rs1).trans rfl
theorem toint (rd rs1 : RegIdx) : Statement (.toint rd rs1) := fun _ => (r2 _ rd rs1).trans rfl
theorem mix (rd rs1 rs2 rs3 : RegIdx) : Statement (.mix rd rs1 rs2 rs3) := fun _ => (r4 _ rd rs1 rs2 rs3).trans rfl
theorem ratio (rd rs1 rs2 : RegIdx) : Statement (.ratio rd rs1 rs2) := fun _ => (r3 _ rd rs1 rs2).trans rfl
theorem narrow (rd rs1 rs2 : RegIdx) : Statement (.narrow rd rs1 rs2) := fun _ => (r3 _ rd rs1 rs2).trans rfl
theorem const (rd : RegIdx) (k : BitVec 8) : Statement (.const rd k) := fun h =>
  (EncodingMatch.k _ rd k (by simpa [Instr.wf] using h)).trans rfl
theorem abs (rd rs1 : RegIdx) : Statement (.abs rd rs1) := fun _ => (r2 _ rd rs1).trans rfl
theorem sign (rd rs1 : RegIdx) : Statement (.sign rd rs1) := fun _ => (r2 _ rd rs1).trans rfl
theorem floor (rd rs1 : RegIdx) : Statement (.floor rd rs1) := fun _ => (r2 _ rd rs1).trans rfl
theorem ceil (rd rs1 : RegIdx) : Statement (.ceil rd rs1) := fun _ => (r2 _ rd rs1).trans rfl
theorem trunc (rd rs1 : RegIdx) : Statement (.trunc rd rs1) := fun _ => (r2 _ rd rs1).trans rfl
theorem round (rd rs1 : RegIdx) : Statement (.round rd rs1) := fun _ => (r2 _ rd rs1).trans rfl
theorem min (rd rs1 rs2 : RegIdx) : Statement (.min rd rs1 rs2) := fun _ => (r3 _ rd rs1 rs2).trans rfl
theorem max (rd rs1 rs2 : RegIdx) : Statement (.max rd rs1 rs2) := fun _ => (r3 _ rd rs1 rs2).trans rfl
theorem sqrt (rd rs1 : RegIdx) : Statement (.sqrt rd rs1) := fun _ => (r2 _ rd rs1).trans rfl
theorem cos (rd rs1 : RegIdx) : Statement (.cos rd rs1) := fun _ => (r2 _ rd rs1).trans rfl
theorem sin (rd rs1 : RegIdx) : Statement (.sin rd rs1) := fun _ => (r2 _ rd rs1).trans rfl
theorem tan (rd rs1 : RegIdx) : Statement (.tan rd rs1) := fun _ => (r2 _ rd rs1).trans rfl
theorem atan2 (rd rs1 rs2 : RegIdx) : Statement (.atan2 rd rs1 rs2) := fun _ => (r3 _ rd rs1 rs2).trans rfl
theorem asin (rd rs1 : RegIdx) : Statement (.asin rd rs1) := fun _ => (r2 _ rd rs1).trans rfl
theorem acos (rd rs1 : RegIdx) : Statement (.acos rd rs1) := fun _ => (r2 _ rd rs1).trans rfl
theorem atan (rd rs1 : RegIdx) : Statement (.atan rd rs1) := fun _ => (r2 _ rd rs1).trans rfl
theorem exp (rd rs1 : RegIdx) : Statement (.exp rd rs1) := fun _ => (r2 _ rd rs1).trans rfl
theorem pow (rd rs1 rs2 : RegIdx) : Statement (.pow rd rs1 rs2) := fun _ => (r3 _ rd rs1 rs2).trans rfl
theorem log2 (rd rs1 : RegIdx) : Statement (.log2 rd rs1) := fun _ => (r2 _ rd rs1).trans rfl
theorem log (rd rs1 : RegIdx) : Statement (.log rd rs1) := fun _ => (r2 _ rd rs1).trans rfl
theorem log10 (rd rs1 : RegIdx) : Statement (.log10 rd rs1) := fun _ => (r2 _ rd rs1).trans rfl
theorem logb (rd rs1 rs2 : RegIdx) : Statement (.logb rd rs1 rs2) := fun _ => (r3 _ rd rs1 rs2).trans rfl

end EncodingMatch

end Sys2Proof.Laws
end

