-- ==== Sys2Proof/Laws/Rom.lean ====
section
/-! SUPPORT. The ranges of the ROM entries (20_memory R53, R54) and that every index a rule computes is inside its ROM
(R57). -/

namespace Sys2Proof.Machine

/-- The four ROMs have the entries R50 counts: 361, 12, 5 and 4. -/
theorem rom_sizes :
    qsTable.length = 361 ∧ atanTable.length = 12 ∧ invFactTable.length = 5 ∧ constTable.length = 4 := by
  decide +kernel

/-- An entry of a list, or the value beyond its end, has what every entry and that value have. -/
theorem getD_of_forall {α : Type} {p : α → Prop} {l : List α} {d : α} (h : ∀ x ∈ l, p x) (hd : p d) (k : Nat) :
    p (l.getD k d) := by
  rw [List.getD_eq_getElem?_getD]
  cases hk : l[k]? with
  | none => exact hd
  | some x => exact h x (List.mem_of_getElem? hk)

/-- Every entry of QS lies in `[0, 1024]` (R53). -/
theorem qsRom_range (k : Nat) : 0 ≤ qsRom k ∧ qsRom k ≤ 1024 :=
  getD_of_forall (p := fun x : Int => 0 ≤ x ∧ x ≤ 1024)
    (by decide +kernel) (by decide) k

/-- Every entry of the ATAN ROM lies in `[0, 46080]` (R54). -/
theorem atanRom_range (i : Nat) : 0 ≤ atanRom i ∧ atanRom i ≤ 46080 :=
  getD_of_forall (p := fun x : Int => 0 ≤ x ∧ x ≤ 46080) (by decide) (by decide) i

/-- The ends of QS, which hold for every resolution (R53). -/
theorem qsRom_ends : qsRom 0 = 1024 ∧ qsRom 360 = 0 := by decide +kernel

/-- R182's index into QS for a reduced index `k`. -/
theorem lookup_index_in_range {k : Nat} (h : k < 1440) :
    (k ≤ 360 → k < 361) ∧ (360 < k ∧ k ≤ 720 → 720 - k < 361) ∧ (720 < k ∧ k ≤ 1080 → k - 720 < 361) ∧
      (1080 < k → 1440 - k < 361) := by omega

/-- A table value lies in `[-1024, 1024]` (R182). -/
theorem lookup_range (k : Nat) : -1024 ≤ lookup k ∧ lookup k ≤ 1024 := by
  have h := qsRom_range
  simp only [lookup, lookupReduced]
  split
  · have := h (k % (4 * Config.lastQuarter)); omega
  · split
    · have := h (2 * Config.lastQuarter - k % (4 * Config.lastQuarter)); omega
    · split
      · have := h (k % (4 * Config.lastQuarter) - 2 * Config.lastQuarter); omega
      · have := h (4 * Config.lastQuarter - k % (4 * Config.lastQuarter)); omega

/-- The named constants are what R56 lists. -/
theorem named_constants : romE = 2784 ∧ romLn2 = 710 ∧ romLog10Of2 = 308 := ⟨rfl, rfl, rfl⟩

end Sys2Proof.Machine
end

