-- ==== Sys2Proof/Machine/Assembler.lean ====
section
/-! DEFINITION. The assembler syntax and the pseudo-instructions (30_encoding R87, R88): one line of text to an
instruction. The machine itself sees command words only. -/

namespace Sys2Proof

/-- The pieces between commas. -/
def splitCommas : List Char → List (List Char)
  | [] => [[]]
  | c :: cs =>
    match splitCommas cs with
    | [] => [[c]]
    | w :: ws => if c = ',' then [] :: w :: ws else (c :: w) :: ws

/-- A piece of a line without the blanks around it. -/
def trimBlanks (l : List Char) : List Char :=
  ((l.dropWhile Char.isWhitespace).reverse.dropWhile Char.isWhitespace).reverse

/-- The operands of a line, in order; none when nothing but blanks follows the mnemonic. -/
def operandsOf (l : List Char) : List (List Char) :=
  if (trimBlanks l).isEmpty then [] else (splitCommas l).map trimBlanks

/-- The register names (R87), each at its index. -/
def registerNames : List String :=
  ["x0", "x1", "x2", "x3", "x4", "x5", "x6", "x7", "x8", "x9", "x10", "x11", "x12", "x13", "x14", "x15"]

/-- A register operand. -/
def readRegister (w : List Char) : Option RegIdx :=
  (registerNames.idxOf? (String.ofList w)).map (BitVec.ofNat 4)

/-- CONST's second operand: 0 to 3 or the constant's name (R87; 20_memory R56). -/
def readConstant (w : List Char) : Option (BitVec 8) :=
  match String.ofList w with
  | "0" | "PI" => some 0
  | "1" | "E" => some 1
  | "2" | "LN2" => some 2
  | "3" | "LOG10_2" => some 3
  | _ => none

/-- Format R2: `xd, xs1`. -/
def asmR2 (mk : RegIdx → RegIdx → Instr) : List (List Char) → Option Instr
  | [d, a] =>
    match readRegister d, readRegister a with
    | some rd, some rs1 => some (mk rd rs1)
    | _, _ => none
  | _ => none

/-- Format R3: `xd, xs1, xs2`. -/
def asmR3 (mk : RegIdx → RegIdx → RegIdx → Instr) : List (List Char) → Option Instr
  | [d, a, b] =>
    match readRegister d, readRegister a, readRegister b with
    | some rd, some rs1, some rs2 => some (mk rd rs1 rs2)
    | _, _, _ => none
  | _ => none

/-- Format R4: `xd, xs1, xs2, xs3`. -/
def asmR4 (mk : RegIdx → RegIdx → RegIdx → RegIdx → Instr) : List (List Char) → Option Instr
  | [d, a, b, c] =>
    match readRegister d, readRegister a, readRegister b, readRegister c with
    | some rd, some rs1, some rs2, some rs3 => some (mk rd rs1 rs2 rs3)
    | _, _, _, _ => none
  | _ => none

/-- Format K: `xd, k`. -/
def asmK (mk : RegIdx → BitVec 8 → Instr) : List (List Char) → Option Instr
  | [d, k] =>
    match readRegister d, readConstant k with
    | some rd, some c => some (mk rd c)
    | _, _ => none
  | _ => none

/-- NOP takes no operand (R88). -/
def asmNop : List (List Char) → Option Instr
  | [] => some (.add 0 0 0)
  | _ :: _ => none

/-- CLR takes one register (R88). -/
def asmClr : List (List Char) → Option Instr
  | [d] => (readRegister d).map fun rd => .add rd 0 0
  | _ => none

/-- The instruction of a mnemonic in lower case and its operands: the 41 of R84 and the four pseudo-instructions of
R88. -/
def asmOperands (mnemonic : String) (ops : List (List Char)) : Option Instr :=
  match mnemonic with
  | "add" => asmR3 .add ops
  | "sub" => asmR3 .sub ops
  | "mul" => asmR3 .mul ops
  | "div" => asmR3 .div ops
  | "mod" => asmR3 .mod ops
  | "shl" => asmR3 .shl ops
  | "shr" => asmR3 .shr ops
  | "cmpeq" => asmR3 .cmpeq ops
  | "cmpne" => asmR3 .cmpne ops
  | "cmplt" => asmR3 .cmplt ops
  | "cmple" => asmR3 .cmple ops
  | "cmpgt" => asmR3 .cmpgt ops
  | "cmpge" => asmR3 .cmpge ops
  | "fromint" => asmR2 .fromint ops
  | "toint" => asmR2 .toint ops
  | "mix" => asmR4 .mix ops
  | "ratio" => asmR3 .ratio ops
  | "narrow" => asmR3 .narrow ops
  | "const" => asmK .const ops
  | "abs" => asmR2 .abs ops
  | "sign" => asmR2 .sign ops
  | "floor" => asmR2 .floor ops
  | "ceil" => asmR2 .ceil ops
  | "trunc" => asmR2 .trunc ops
  | "round" => asmR2 .round ops
  | "min" => asmR3 .min ops
  | "max" => asmR3 .max ops
  | "sqrt" => asmR2 .sqrt ops
  | "cos" => asmR2 .cos ops
  | "sin" => asmR2 .sin ops
  | "tan" => asmR2 .tan ops
  | "atan2" => asmR3 .atan2 ops
  | "asin" => asmR2 .asin ops
  | "acos" => asmR2 .acos ops
  | "atan" => asmR2 .atan ops
  | "exp" => asmR2 .exp ops
  | "pow" => asmR3 .pow ops
  | "log2" => asmR2 .log2 ops
  | "log" => asmR2 .log ops
  | "log10" => asmR2 .log10 ops
  | "logb" => asmR3 .logb ops
  | "nop" => asmNop ops
  | "mov" => asmR2 (fun d s => .add d s 0) ops
  | "neg" => asmR2 (fun d s => .sub d 0 s) ops
  | "clr" => asmClr ops
  | _ => none

/-- One line of assembler text (R87): a `;` starts a comment; the mnemonic, in any case, then its operands separated by
commas, destination first. -/
def assemble (line : String) : Option Instr :=
  let body := trimBlanks (line.toList.takeWhile (· ≠ ';'))
  let mnemonic := body.takeWhile fun c => !c.isWhitespace
  asmOperands (String.ofList (mnemonic.map Char.toLower)) (operandsOf (body.drop mnemonic.length))

end Sys2Proof
end

