-- ==== Sys2Proof/Tests/Slice0.lean ====
section
/-! SUPPORT. This model's own tests. Expected words and results are the spec's (30_encoding R80 to R89,
95_test_vectors), never the model's. A `witness_` theorem shows a state and operands that meet the hypotheses of the
statement it names, one for each clause, at the ends of the clause's range. -/

open Sys2Proof Sys2Proof.Machine

/-! ## Well-formedness (30_encoding R82, R83) -/

/-- CONST's immediate is 0 to 3: 4 and 255 are refused, 3 is not. -/
theorem test_wf_const :
    (Instr.const 0 4).wf = false ∧ (Instr.const 0 255).wf = false ∧ (Instr.const 0 3).wf = true := by decide

/-- Every register index is legal, in every field. -/
theorem test_wf_registers : (Instr.mix 15 0 15 0).wf = true ∧ (Instr.add 0 0 0).wf = true := by decide

/-! ## Decoding, each word written bit by bit from the layouts of 30_encoding R81 and the opcodes of R84 -/

/-- The scalar arithmetic instructions' words, from R80, R81 and R84. -/
theorem test_decode_scalar_arithmetic :
    decode 0b00000001_0011_0001_0010_0000_00000000#32 = .ok (.add 3 1 2) ∧
    decode 0b00000010_1000_0111_0101_0000_00000000#32 = .ok (.sub 8 7 5) ∧
    decode 0b00000011_1111_0000_1001_0000_00000000#32 = .ok (.mul 15 0 9) ∧
    decode 0b00000100_0001_1110_1101_0000_00000000#32 = .ok (.div 1 14 13) ∧
    decode 0b00000101_1100_0100_1000_0000_00000000#32 = .ok (.mod 12 4 8) ∧
    decode 0b00000110_0110_1010_0011_0000_00000000#32 = .ok (.shl 6 10 3) ∧
    decode 0b00000111_0101_1011_1100_0000_00000000#32 = .ok (.shr 5 11 12) := by
  decide

/-- The comparison instructions' words, from R80, R81 and R84. -/
theorem test_decode_comparison :
    decode 0b00001000_0011_0001_0010_0000_00000000#32 = .ok (.cmpeq 3 1 2) ∧
    decode 0b00001001_1000_0111_0101_0000_00000000#32 = .ok (.cmpne 8 7 5) ∧
    decode 0b00001010_1111_0000_1001_0000_00000000#32 = .ok (.cmplt 15 0 9) ∧
    decode 0b00001011_0001_1110_1101_0000_00000000#32 = .ok (.cmple 1 14 13) ∧
    decode 0b00001100_1100_0100_1000_0000_00000000#32 = .ok (.cmpgt 12 4 8) ∧
    decode 0b00001101_0110_1010_0011_0000_00000000#32 = .ok (.cmpge 6 10 3) := by
  decide

/-- The conversion instructions' words, from R80, R81 and R84. -/
theorem test_decode_conversion :
    decode 0b00010000_0011_0001_0000_0000_00000000#32 = .ok (.fromint 3 1) ∧
    decode 0b00010001_1000_0111_0000_0000_00000000#32 = .ok (.toint 8 7) ∧
    decode 0b00010010_1111_0000_1001_1010_00000000#32 = .ok (.mix 15 0 9 10) ∧
    decode 0b00010011_0001_1110_1101_0000_00000000#32 = .ok (.ratio 1 14 13) := by
  decide

/-- The high precision instructions' words, from R80, R81 and R84. -/
theorem test_decode_high_precision :
    decode 0b00011000_0011_0001_0010_0000_00000000#32 = .ok (.narrow 3 1 2) ∧
    decode 0b00011001_1000_0000_0000_0000_00000010#32 = .ok (.const 8 2) := by
  decide

/-- The elementary instructions' words, from R80, R81 and R84. -/
theorem test_decode_elementary :
    decode 0b00100000_0011_0001_0000_0000_00000000#32 = .ok (.abs 3 1) ∧
    decode 0b00100001_1000_0111_0000_0000_00000000#32 = .ok (.sign 8 7) ∧
    decode 0b00100010_1111_0000_0000_0000_00000000#32 = .ok (.floor 15 0) ∧
    decode 0b00100011_0001_1110_0000_0000_00000000#32 = .ok (.ceil 1 14) ∧
    decode 0b00100100_1100_0100_0000_0000_00000000#32 = .ok (.trunc 12 4) ∧
    decode 0b00100101_0110_1010_0000_0000_00000000#32 = .ok (.round 6 10) ∧
    decode 0b00100110_0101_1011_1100_0000_00000000#32 = .ok (.min 5 11 12) ∧
    decode 0b00100111_1001_0010_0110_0000_00000000#32 = .ok (.max 9 2 6) ∧
    decode 0b00101000_1010_1101_0000_0000_00000000#32 = .ok (.sqrt 10 13) := by
  decide

/-- The trigonometric instructions' words, from R80, R81 and R84. -/
theorem test_decode_trigonometric :
    decode 0b00110000_0011_0001_0000_0000_00000000#32 = .ok (.cos 3 1) ∧
    decode 0b00110001_1000_0111_0000_0000_00000000#32 = .ok (.sin 8 7) ∧
    decode 0b00110010_1111_0000_0000_0000_00000000#32 = .ok (.tan 15 0) ∧
    decode 0b00111000_0001_1110_1101_0000_00000000#32 = .ok (.atan2 1 14 13) ∧
    decode 0b00111001_1100_0100_0000_0000_00000000#32 = .ok (.asin 12 4) ∧
    decode 0b00111010_0110_1010_0000_0000_00000000#32 = .ok (.acos 6 10) ∧
    decode 0b00111011_0101_1011_0000_0000_00000000#32 = .ok (.atan 5 11) := by
  decide

/-- The power and logarithm instructions' words, from R80, R81 and R84. -/
theorem test_decode_power_and_logarithm :
    decode 0b01000000_0011_0001_0000_0000_00000000#32 = .ok (.exp 3 1) ∧
    decode 0b01000001_1000_0111_0101_0000_00000000#32 = .ok (.pow 8 7 5) ∧
    decode 0b01001000_1111_0000_0000_0000_00000000#32 = .ok (.log2 15 0) ∧
    decode 0b01001001_0001_1110_0000_0000_00000000#32 = .ok (.log 1 14) ∧
    decode 0b01001010_1100_0100_0000_0000_00000000#32 = .ok (.log10 12 4) ∧
    decode 0b01001011_0110_1010_0011_0000_00000000#32 = .ok (.logb 6 10 3) := by
  decide

/-- Illegal words, from 95_test_vectors' decode vectors (R85): a must-be-zero bit of each format, and unassigned
opcodes. -/
theorem test_decode_illegal :
    decode 0x01756001#32 = .error .mustBeZero ∧ decode 0x28871000#32 = .error .mustBeZero ∧
    decode 0x12612301#32 = .error .mustBeZero ∧ decode 0x19900004#32 = .error .mustBeZero ∧
    decode 0x19910000#32 = .error .mustBeZero ∧ decode 0x00000000#32 = .error .unassignedOpcode ∧
    decode 0x0E000000#32 = .error .unassignedOpcode ∧ decode 0xF0000000#32 = .error .unassignedOpcode ∧
    decode 0xFFFFFFFF#32 = .error .unassignedOpcode := by
  decide

/-- The table's numbering: one 32-bit word, and nothing longer (R86). -/
theorem test_decode_table_word :
    decodeTableWord 32 0x01312000 = some (.add 3 1 2) ∧ decodeTableWord 32 0x19500004 = none ∧
    decodeTableWord 40 0x1001312000 = none := by
  decide

/-- The assembly lines and words of 30_encoding's examples and of its pseudo-instructions (R87, R88). -/
theorem test_assemble :
    (assemble "ADD x3, x1, x2").map encode = some 0x01312000#32 ∧
    (assemble "mix x1,x2,x3,x4 ; a comment").map encode = some 0x12123400#32 ∧
    (assemble "  SQRT   x8, x7").map encode = some 0x28870000#32 ∧
    (assemble "CONST x5, E").map encode = some 0x19500001#32 ∧
    (assemble "NOP").map encode = some 0x01000000#32 ∧
    (assemble "NEG x3, x1").map encode = some 0x02301000#32 ∧
    assemble "CONST x5, 4" = none ∧ assemble "ADD x3, x1" = none ∧ assemble "ADD x3, x1, x16" = none := by
  decide

/-! ## One instruction at a time, each from the row of 95_test_vectors with the same operands -/

/-- A BUSY state with three operands in x1, x2 and x3. -/
def operands (a b c : Int) : State :=
  { State.reset with
    regs := #v[BitVec.ofInt 32 a, BitVec.ofInt 32 b, BitVec.ofInt 32 c, 0, 0, 0, 0, 0, 0, 0, 0, 0, 0, 0, 0]
    run := .busy
    command := 0x01234567#32 }

/-- How an instruction with destination x4 ended. -/
inductive Ending where
  /-- It completed, with this value in x4. -/
  | result (v : Int)
  /-- It faulted, with FAULTCMD the command word and no register written. -/
  | fault (c : Cause)
  /-- Anything else. -/
  | other
  deriving DecidableEq, Repr

/-- The ending of `i` in `s`. -/
def outcome (i : Instr) (s : State) : Ending :=
  match exec i s with
  | .next t =>
    if t.run = .idle ∧ t.cause = none then .result (t.readReg 4).toInt
    else
      match t.run, t.cause with
      | .halted, some c => if t.regs = s.regs ∧ t.faultCmd = s.command then .fault c else .other
      | _, _ => .other
  | .fault _ => .other
  | .refused _ => .other

theorem test_add_wraps : outcome (.add 4 1 2) (operands 2147483647 1 0) = .result (-2147483648) := by decide
theorem test_sub_wraps : outcome (.sub 4 1 2) (operands (-2147483648) 1 0) = .result 2147483647 := by decide
theorem test_mul_ties_up : outcome (.mul 4 1 2) (operands (-1) 512 0) = .result 0 := by decide
theorem test_mul_wraps : outcome (.mul 4 1 2) (operands 1048576 2097152 0) = .result (-2147483648) := by decide
theorem test_div_negative_truncates : outcome (.div 4 1 2) (operands (-2048) 3072 0) = .result (-682) := by decide
theorem test_div_zero_faults : outcome (.div 4 1 2) (operands 1024 0 0) = .fault .divideByZero := by decide
theorem test_mod_sign_of_dividend : outcome (.mod 4 1 2) (operands (-7) 3 0) = .result (-1) := by decide
theorem test_mod_zero_faults : outcome (.mod 4 1 2) (operands 1 0 0) = .fault .divideByZero := by decide
theorem test_shl_count_modulo_32 : outcome (.shl 4 1 2) (operands 1024 33 0) = .result 2048 := by decide
theorem test_shl_minus_one : outcome (.shl 4 1 2) (operands 1024 (-1) 0) = .result 0 := by decide
theorem test_shr_arithmetic : outcome (.shr 4 1 2) (operands (-3) 1 0) = .result (-2) := by decide
theorem test_shr_count_modulo_32 : outcome (.shr 4 1 2) (operands 1024 32 0) = .result 1024 := by decide
theorem test_cmpeq_true : outcome (.cmpeq 4 1 2) (operands 5 5 0) = .result 1 := by decide
theorem test_cmpne_false : outcome (.cmpne 4 1 2) (operands 5 5 0) = .result 0 := by decide
theorem test_cmplt_signed : outcome (.cmplt 4 1 2) (operands 2147483647 (-2147483648) 0) = .result 0 := by decide
theorem test_cmplt_true : outcome (.cmplt 4 1 2) (operands (-1) 0 0) = .result 1 := by decide
theorem test_cmple_equal : outcome (.cmple 4 1 2) (operands 7 7 0) = .result 1 := by decide
theorem test_cmpgt_signed : outcome (.cmpgt 4 1 2) (operands (-2147483648) 2147483647 0) = .result 0 := by decide
theorem test_cmpge_true : outcome (.cmpge 4 1 2) (operands 0 (-1) 0) = .result 1 := by decide
theorem test_fromint_wraps : outcome (.fromint 4 1) (operands 2097152 0 0) = .result (-2147483648) := by decide
theorem test_toint_floors : outcome (.toint 4 1) (operands (-1536) 0 0) = .result (-2) := by decide
theorem test_mix_negative_integer : outcome (.mix 4 1 2 3) (operands (-1) 1 2) = .result (-1536) := by decide
theorem test_mix_sign_before_zero : outcome (.mix 4 1 2 3) (operands 1 (-1) 0) = .fault .invalidArgument := by decide
theorem test_ratio_rounds : outcome (.ratio 4 1 2) (operands (-1) 3 0) = .result (-341) := by decide
theorem test_ratio_zero_faults : outcome (.ratio 4 1 2) (operands 1 0 0) = .fault .divideByZero := by decide
theorem test_narrow_bias : outcome (.narrow 4 1 2) (operands (-1) (-2097153) 0) = .result (-1) := by decide
theorem test_narrow_wraps : outcome (.narrow 4 1 2) (operands 2097152 0 0) = .result (-2147483648) := by decide
theorem test_const_e : outcome (.const 4 1) (operands 0 0 0) = .result 2784 := by decide
theorem test_const_log10 : outcome (.const 4 3) (operands 0 0 0) = .result 308 := by decide
theorem test_abs_wraps : outcome (.abs 4 1) (operands (-2147483648) 0 0) = .result (-2147483648) := by decide
theorem test_sign_negative : outcome (.sign 4 1) (operands (-1) 0 0) = .result (-1024) := by decide
theorem test_sign_positive : outcome (.sign 4 1) (operands 1 0 0) = .result 1024 := by decide
theorem test_floor_negative : outcome (.floor 4 1) (operands (-1536) 0 0) = .result (-2048) := by decide
theorem test_ceil_wraps : outcome (.ceil 4 1) (operands 2147483647 0 0) = .result (-2147483648) := by decide
theorem test_ceil_negative : outcome (.ceil 4 1) (operands (-1536) 0 0) = .result (-1024) := by decide
theorem test_trunc_negative : outcome (.trunc 4 1) (operands (-1536) 0 0) = .result (-1024) := by decide
theorem test_round_half_up : outcome (.round 4 1) (operands (-1536) 0 0) = .result (-1024) := by decide
theorem test_round_wraps : outcome (.round 4 1) (operands 2147483647 0 0) = .result (-2147483648) := by decide
theorem test_min_signed : outcome (.min 4 1 2) (operands (-2147483648) 2147483647 0) = .result (-2147483648) := by decide
theorem test_max_signed : outcome (.max 4 1 2) (operands (-1) 1 0) = .result 1 := by decide
theorem test_sqrt_one_raw : outcome (.sqrt 4 1) (operands 1 0 0) = .result 32 := by decide
theorem test_sqrt_negative_faults : outcome (.sqrt 4 1) (operands (-1) 0 0) = .fault .domainSqrt := by decide
theorem test_cos_between_entries : outcome (.cos 4 1) (operands 46208 0 0) = .result 723 := by decide
theorem test_cos_least_angle : outcome (.cos 4 1) (operands (-2147483648) 0 0) = .result (-904) := by decide
theorem test_sin_least_angle : outcome (.sin 4 1) (operands (-2147483648) 0 0) = .result (-481) := by decide
theorem test_sin_negative : outcome (.sin 4 1) (operands (-30720) 0 0) = .result (-512) := by decide
theorem test_tan_negative : outcome (.tan 4 1) (operands (-46080) 0 0) = .result (-1024) := by decide
theorem test_tan_zero_cosine_faults : outcome (.tan 4 1) (operands 92129 0 0) = .fault .divideByZero := by decide
theorem test_atan2_left_half_plane : outcome (.atan2 4 1 2) (operands (-1024) (-1024) 0) = .result (-138240) := by decide
theorem test_atan2_zeros_fault : outcome (.atan2 4 1 2) (operands 0 0 0) = .fault .domainAtan2 := by decide
theorem test_asin_minus_one : outcome (.asin 4 1) (operands (-1024) 0 0) = .result (-92178) := by decide
theorem test_asin_above_one_faults : outcome (.asin 4 1) (operands 1025 0 0) = .fault .domainSqrt := by decide
theorem test_acos_half : outcome (.acos 4 1) (operands 512 0 0) = .result 61428 := by decide
theorem test_acos_above_one_faults : outcome (.acos 4 1) (operands 1025 0 0) = .fault .domainSqrt := by decide
theorem test_atan_minus_one : outcome (.atan 4 1) (operands (-1024) 0 0) = .result (-46080) := by decide
theorem test_exp_wraps : outcome (.exp 4 1) (operands 15360 0 0) = .result (-938877242) := by decide
theorem test_exp_one : outcome (.exp 4 1) (operands 1024 0 0) = .result 2784 := by decide
theorem test_pow_fraction_of_negative_faults : outcome (.pow 4 1 2) (operands (-2048) 512 0) = .fault .domainLog := by decide
theorem test_pow_negative_fraction : outcome (.pow 4 1 2) (operands 2048 (-512) 0) = .result 724 := by decide
theorem test_log2_below_one : outcome (.log2 4 1) (operands 768 0 0) = .result (-426) := by decide
theorem test_log2_zero_faults : outcome (.log2 4 1) (operands 0 0 0) = .fault .domainLog := by decide
theorem test_log_ln2 : outcome (.log 4 1) (operands 2048 0 0) = .result 710 := by decide
theorem test_log_zero_faults : outcome (.log 4 1) (operands 0 0 0) = .fault .domainLog := by decide
theorem test_log10_least : outcome (.log10 4 1) (operands 1 0 0) = .result (-3080) := by decide
theorem test_log10_negative_faults : outcome (.log10 4 1) (operands (-1) 0 0) = .fault .domainLog := by decide
theorem test_logb_below_one : outcome (.logb 4 1 2) (operands 8192 512 0) = .result (-3072) := by decide
theorem test_logb_value_before_base : outcome (.logb 4 1 2) (operands 0 1024 0) = .fault .domainLog := by decide

/-- A source that is also the destination is read before the write (R32). -/
theorem test_source_is_destination : exec (.add 1 1 1) (operands 3072 0 0) =
    .next { operands 6144 0 0 with run := .idle } := by rfl

/-- A write of x0 is discarded (R31). -/
theorem test_zero_destination : exec (.add 0 1 1) (operands 3072 0 0) =
    .next { operands 3072 0 0 with run := .idle } := by rfl

/-- The checks run even when the destination is x0 (R31). -/
theorem test_zero_destination_faults : outcome (.div 0 1 2) (operands 3072 0 0) = .fault .divideByZero := by decide

/-! ## Steps, the host's transactions and the CSRs -/

/-- A field of the next state. -/
def after {α : Type} (s : State) (f : State → α) : Option α :=
  match step s with
  | .next t => some (f t)
  | .fault _ => none
  | .refused _ => none

/-- P2 line 8: CONST x13, PI is the first command after reset. -/
theorem test_first_command : after (State.reset.withFetchWord 32 0x19D00000)
    (fun t => (t.readReg 13, t.csr 0x00, t.turns)) = some (3217#32, 0#32, []) := by decide

/-- P7: an illegal word halts with cause 1, and FAULTCMD holds it. -/
theorem test_illegal_command : after (State.reset.withFetchWord 32 0x28210001)
    (fun t => (t.csr 0x00, t.csr 0x01)) = some (0x00000102#32, 0x28210001#32) := by decide

/-- P3: DIV x4, x3, x0 halts with cause 2. -/
theorem test_division_halts : after (State.reset.withFetchWord 32 0x04430000)
    (fun t => (t.csr 0x00, t.csr 0x01)) = some (0x00000202#32, 0x04430000#32) := by decide

/-- A state in a run state with one host transaction to come. -/
def hosted (r : RunState) (t : Transaction) : State := { operands 7 8 9 with run := r, turns := [.host t, .unit] }

/-- ISSUE in IDLE (R44). -/
theorem test_issue : after (hosted .idle (.issue 0x01000000)) (fun t => (t.run, t.command, t.replies)) =
    some (.busy, 0x01000000#32, [.accepted]) := by decide

/-- WRITE_REG of x0 has no effect (R31, R45). -/
theorem test_write_zero : after (hosted .idle (.writeReg 0 5)) (fun t => (t.regs, t.replies)) =
    some ((operands 7 8 9).regs, [.accepted]) := by decide

/-- READ_CSR in BUSY (R47): STATUS is BUSY, CONFIG is its constant, a reserved index reads 0. -/
theorem test_read_csr :
    after (hosted .busy (.readCsr 0x00)) (·.replies) = some [.value 0x00000001#32] ∧
    after (hosted .busy (.readCsr 0x02)) (·.replies) = some [.value 0x0110020A#32] ∧
    after (hosted .busy (.readCsr 0x03)) (·.replies) = some [.value 0x00000000#32] := by decide

/-- RESET of a HALTED unit (R49). -/
theorem test_reset : after ({ hosted .halted .reset with cause := some .domainLog, faultCmd := 1#32 })
    (fun t => (t.run, t.csr 0x00, t.csr 0x01)) = some (.idle, 0#32, 0#32) := by decide

/-! ## Witnesses: the scalar statements -/

theorem witness_MulRoundsToNearest : ((operands 5 1024 0).readReg 2).toInt = 1024 := by decide

theorem witness_DivRatioQuotient :
    ((operands 5 0 0).readReg 2).toInt = 0 ∧ ((operands 5 (-1) 0).readReg 2).toInt ≠ 0 := by decide

theorem witness_ModSignFollowsDividend :
    ((operands (-7) 0 0).readReg 2).toInt = 0 ∧ ((operands (-7) 3 0).readReg 2).toInt ≠ 0 := by decide

/-- MIX's four clauses: a negative numerator or denominator, a zero denominator, and the two signs of the integer. -/
theorem witness_MixBuildsMixedNumber :
    ((operands 1 (-1) 0).readReg 2).toInt < 0 ∧ ((operands 1 0 (-1)).readReg 3).toInt < 0 ∧
    (0 ≤ ((operands 1 0 0).readReg 2).toInt ∧ ((operands 1 0 0).readReg 3).toInt = 0) ∧
    (0 ≤ ((operands (-1) 0 1).readReg 2).toInt ∧ 0 < ((operands (-1) 0 1).readReg 3).toInt ∧
      ((operands (-1) 0 1).readReg 1).toInt < 0) ∧
    (0 ≤ ((operands 0 0 1).readReg 2).toInt ∧ 0 < ((operands 0 0 1).readReg 3).toInt ∧
      0 ≤ ((operands 0 0 1).readReg 1).toInt) := by decide

theorem witness_ConstReadsNamedConstant : (3#8).toNat < 4 ∧ 4 ≤ (4#8).toNat := by decide

theorem witness_FloorAndCeil :
    ((operands 2147482624 0 0).readReg 1).toInt ≤ 2147482624 ∧
    2147482624 < ((operands 2147482625 0 0).readReg 1).toInt := by decide

/-- CEIL where its two clauses meet (R153's add wraps from 2147482625 on). -/
theorem test_ceil_boundary : outcome (.ceil 4 1) (operands 2147482625 0 0) = .result (-2147483648) := by decide

theorem witness_TruncAndRound :
    ((operands 2147483135 0 0).readReg 1).toInt < 2147483136 ∧
    2147483136 ≤ ((operands 2147483136 0 0).readReg 1).toInt := by decide

/-! ## Witnesses: roots and angles -/

theorem witness_SqrtIsNearestRoot :
    ((operands (-1) 0 0).readReg 1).toInt < 0 ∧ ((operands 0 0 0).readReg 1).toInt = 0 ∧
    0 < ((operands 1 0 0).readReg 1).toInt := by decide

theorem witness_NewtonGivesFloorRootInSix : (1 ≤ 1 ∧ 1 < 2 ^ 43) ∧ (1 ≤ 2 ^ 43 - 1 ∧ 2 ^ 43 - 1 < 2 ^ 43) ∧ 6 ≤ 6 := by
  decide

theorem witness_SqrtSquaredWithinBound :
    (4 : RegIdx) ≠ 0#4 ∧ (5 : RegIdx) ≠ 0#4 ∧ 0 ≤ ((operands 2138237308 0 0).readReg 1).toInt := by decide

theorem witness_RomEntriesAreListed : 360 ≤ 360 ∧ 359 < 360 ∧ 11 < 12 := by decide

theorem witness_LookupMirrorsQuarterTable : 360 ≤ 360 ∧ 720 ≤ 720 ∧ 1440 ≤ 1440 := by decide

/-- TAN's bands and the angles beside them, from 95_test_vectors' further corner cases. -/
theorem witness_TanFaultsWhereCosineIsZero :
    (∀ a ∈ [92129, 92192, 276448, 276511],
      outcome (.tan 4 1) (operands a 0 0) = .fault .divideByZero) ∧
    outcome (.tan 4 1) (operands 92193 0 0) = .result (-1048576) ∧
    outcome (.tan 4 1) (operands 276512 0 0) = .result (-1048576) := by decide

theorem witness_SquaresSumNearOne : (46080 : Int) % 256 = 0 := by decide

/-- ATAN2's clauses: both zero; not both; y zero with either sign of x; the diagonal. -/
theorem witness_Atan2IsVectoringAngle :
    (((operands 0 0 0).readReg 1).toInt = 0 ∧ ((operands 0 0 0).readReg 2).toInt = 0) ∧
    ¬ (((operands 1 0 0).readReg 1).toInt = 0 ∧ ((operands 1 0 0).readReg 2).toInt = 0) ∧
    (((operands 0 1 0).readReg 1).toInt = 0 ∧ 0 < ((operands 0 1 0).readReg 2).toInt) ∧
    (((operands 0 (-1) 0).readReg 1).toInt = 0 ∧ ((operands 0 (-1) 0).readReg 2).toInt < 0) ∧
    (0 < ((operands 1 1 0).readReg 1).toInt ∧
      ((operands 1 1 0).readReg 2).toInt = ((operands 1 1 0).readReg 1).toInt) := by decide

theorem witness_CordicNeverOverflows : 0 ≤ 12 ∧ 12 ≤ 12 := by decide

/-- ASIN and ACOS: a wrapped product that is negative (1.0 and one raw), zero (1.0) and positive (0). -/
theorem witness_AsinAcosThroughWrappedRoot :
    (BitVec.ofInt 32 (roundedProduct (1024#32 + 1025#32).toInt (1024#32 - 1025#32).toInt)).toInt < 0 ∧
    0 ≤ (BitVec.ofInt 32 (roundedProduct (1024#32 + 1024#32).toInt (1024#32 - 1024#32).toInt)).toInt ∧
    0 ≤ (BitVec.ofInt 32 (roundedProduct (1024#32 + 0#32).toInt (1024#32 - 0#32).toInt)).toInt := by decide

theorem witness_AsinAcosDomain :
    ((operands (-1024) 0 0).readReg 1).toInt.natAbs ≤ 1024 ∧
    (1024 < ((operands 1025 0 0).readReg 1).toInt.natAbs ∧ ((operands 1025 0 0).readReg 1).toInt.natAbs ≤ 1482910) ∧
    outcome (.asin 4 1) (operands 1482910 0 0) = .fault .domainSqrt := by decide

/-! ## Witnesses: powers and logarithms -/

theorem witness_PowOfOneOrZeroExponent :
    ((operands 1024 512 0).readReg 1).toInt = 1024 ∧ (operands 0 0 0).readReg 2 = 0#32 := by decide

/-- POW's four clauses, with the base not 1.0 and the exponent not 0. -/
theorem witness_PowFaultsExactly :
    (∀ p ∈ [(0, -1024), (-2048, -1024), (-2048, 512), (2048, 512)],
      ((operands p.1 p.2 0).readReg 1).toInt ≠ 1024 ∧ ((operands p.1 p.2 0).readReg 2).toInt ≠ 0) ∧
    (-1024 : Int) % 1024 = 0 ∧ (512 : Int) % 1024 ≠ 0 ∧
    outcome (.pow 4 1 2) (operands 0 (-1024) 0) = .fault .divideByZero ∧
    outcome (.pow 4 1 2) (operands 0 512 0) = .fault .domainLog ∧
    outcome (.pow 4 1 2) (operands (-2048) 3072 0) = .result (-8192) := by decide

theorem witness_PowOfIntegersIsExact :
    ((operands (-2048) 3072 0).readReg 1).toInt = 1024 * (-2) ∧
    ((operands (-2048) 3072 0).readReg 2).toInt = 1024 * ((3 : Nat) : Int) := by decide

/-- A fractional base, and a negative exponent at the least value and for base 0 (R212). -/
theorem witness_PowWholeIsSquareAndMultiply :
    (∀ p ∈ [(1001, 6144), (3072, -2048), (3072, -2147483648), (0, -1024), (0, 1024)],
      ((operands p.1 p.2 0).readReg 2).toInt % 1024 = 0 ∧ ((operands p.1 p.2 0).readReg 2).toInt ≠ 0 ∧
      ((operands p.1 p.2 0).readReg 1).toInt ≠ 1024) ∧
    (((operands 0 (-1024) 0).readReg 2).toInt / 1024 < 0 ∧ ((operands 0 (-1024) 0).readReg 1).toInt = 0) ∧
    ¬ (((operands 0 1024 0).readReg 2).toInt / 1024 < 0 ∧ ((operands 0 1024 0).readReg 1).toInt = 0) := by decide

theorem witness_PowLoopWithinBound : (2 : Nat) ^ 21 ≤ 2 ^ 21 ∧ 22 ≤ 22 := by decide

theorem witness_PowFractionalIsSeries :
    (∀ x ∈ [512, -512, 1023, 1, -1], ((operands 2048 x 0).readReg 2).toInt % 1024 ≠ 0) ∧
    ((operands 2048 512 0).readReg 1).toInt ≠ 1024 ∧ 0 < ((operands 2048 512 0).readReg 1).toInt ∧
    ((operands 0 512 0).readReg 1).toInt ≤ 0 := by decide

theorem witness_ExpIsPowOfRomE : (operands 512 2784 0).readReg 2 = 2784#32 := by decide

theorem witness_Log2ExtractsBits :
    ((operands 0 0 0).readReg 1).toInt ≤ 0 ∧ 0 < ((operands 1 0 0).readReg 1).toInt := by decide

theorem witness_Log2IntegerPartIsFloor :
    0 < ((operands 1 0 0).readReg 1).toInt ∧ ((operands 1 0 0).readReg 1).toInt = 2 ^ 0 ∧
    ((operands 1073741824 0 0).readReg 1).toInt = 2 ^ 30 := by decide

theorem witness_LogAndLog10ScaleLog2 :
    ((operands 0 0 0).readReg 1).toInt ≤ 0 ∧ 0 < ((operands 1 0 0).readReg 1).toInt := by decide

/-- LOGB's clauses: the value, the base not positive, base 1.0, and each of the four bases a logarithm is taken to. -/
theorem witness_LogbByBase :
    ((operands 0 1024 0).readReg 1).toInt ≤ 0 ∧
    (0 < ((operands 1 0 0).readReg 1).toInt ∧ ((operands 1 0 0).readReg 2).toInt ≤ 0) ∧
    (0 < ((operands 1 1024 0).readReg 1).toInt ∧ ((operands 1 1024 0).readReg 2).toInt = 1024) ∧
    (∀ b ∈ [1, 1023, 1025, 2048, 2784, 10240, 2147483647],
      0 < ((operands 1 b 0).readReg 2).toInt ∧ ((operands 1 b 0).readReg 2).toInt ≠ 1024) ∧
    outcome (.logb 4 1 2) (operands 8192 1024 0) = .fault .divideByZero := by decide

theorem witness_Log2RecoversPowOfTwo :
    (4 : RegIdx) ≠ 0#4 ∧ (5 : RegIdx) ≠ 0#4 ∧ (operands 2048 21503 0).readReg 1 = 2048#32 ∧
    0 ≤ ((operands 2048 0 0).readReg 2).toInt ∧ ((operands 2048 21503 0).readReg 2).toInt < 21504 := by decide

/-! ## Witnesses: encoding and every command -/

theorem witness_DecodeOfEncode : (Instr.mix 1 2 3 4).wf = true ∧ encode (.mix 1 2 3 4) = 0x12123400#32 := by decide

theorem witness_DecodeAcceptsOnlyEncodings : decode 0x19500001#32 = .ok (.const 5 1) := by decide

theorem witness_ZeroRegisterIsHardwired : (Instr.add 0 1 1).rd = 0#4 := by decide

theorem witness_OnlyListedCauses :
    (Instr.div 4 1 2).wf = true ∧ Faults (.div 4 1 2) (operands 1024 0 0) .divideByZero :=
  ⟨rfl, faults_of_raise rfl⟩

/-- Two states that agree on the sources and differ elsewhere, with a result and with a fault. -/
theorem witness_ResultDependsOnSourcesOnly :
    (∀ r ∈ (Instr.add 4 1 2).sources, (operands 1 2 9).readReg r = (operands 1 2 3).readReg r) ∧
    Completes (.add 4 1 2) (operands 1 2 3) 3#32 ∧
    (∀ r ∈ (Instr.div 4 1 2).sources, (operands 1 0 9).readReg r = (operands 1 0 3).readReg r) ∧
    Faults (.div 4 1 2) (operands 1 0 3) .divideByZero :=
  ⟨by decide, completes_of_finish rfl, by decide, faults_of_raise rfl⟩

/-! ## Witnesses: the machine -/

theorem witness_StepRunsDecodedCommand :
    (State.reset.withFetchWord 32 0x01312000).run = .busy ∧
    decode (State.reset.withFetchWord 32 0x01312000).command = .ok (.add 3 1 2) ∧
    (State.reset.withFetchWord 32 0x01312000).turns = .unit :: [] ∧
    (operands 1 2 3).run = .busy ∧ decode (operands 1 2 3).command ≠ .ok (.add 3 1 2) ∧
    (let s := { operands 1 2 3 with command := 0x01312000#32 }
     s.run = .busy ∧ decode s.command = .ok (.add 3 1 2) ∧ s.turns = []) := by decide

/-- The word 0 is no instruction's (R85). -/
theorem encode_ne_zero (i : Instr) : encode i ≠ 0#32 := fun h => by
  have h0 : opcodeOf (encode i) = 0#8 := by rw [h]; decide
  cases i <;> simp [encode] at h0

/-- The word 0 with a unit turn on the list, and with no turn left. -/
theorem witness_IllegalWordFaults :
    ((State.reset.withFetchWord 32 0).run = .busy ∧ (State.reset.withFetchWord 32 0).turns = .unit :: [] ∧
      ∀ i : Instr, i.wf = true → encode i ≠ (State.reset.withFetchWord 32 0).command) ∧
    (let s := { operands 1 2 3 with command := 0#32 }
     s.run = .busy ∧ s.turns = [] ∧ ∀ i : Instr, i.wf = true → encode i ≠ s.command) :=
  ⟨⟨rfl, rfl, fun i _ => encode_ne_zero i⟩, rfl, rfl, fun i _ => encode_ne_zero i⟩

theorem witness_StepKeepsStatusInv :
    (operands 1 2 3).StatusInv ∧ (after (operands 1 2 3) (·.run)).isSome = true ∧
    ({ operands 1 2 3 with run := .halted, cause := some .domainLog, faultCmd := 5#32 } : State).StatusInv := by decide

/-- The invariant in IDLE, in BUSY, and in HALTED with each cause. -/
theorem witness_StatusRegisterFields :
    State.reset.StatusInv ∧ State.reset.cause = none ∧ (operands 1 2 3).StatusInv ∧
    ∀ c ∈ [Cause.illegalInstruction, .divideByZero, .domainSqrt, .domainLog, .domainAtan2, .invalidArgument],
      ({ State.reset with run := .halted, cause := some c } : State).StatusInv := by decide

theorem witness_HaltedUntilReset :
    (hosted .halted (.issue 1)).run = .halted ∧
    (hosted .halted (.issue 1)).turns.head? ≠ some (.host .reset) ∧
    after (hosted .halted (.issue 0x01533000)) (fun t => (t.run, t.command)) =
      some (.halted, (operands 7 8 9).command) := by decide

theorem witness_IssueOnlyWhenIdle :
    (hosted .idle (.issue 1)).turns = .host (.issue 1) :: [.unit] ∧ (hosted .idle (.issue 1)).run = .idle ∧
    (hosted .busy (.issue 1)).run ≠ .idle ∧ (hosted .halted (.issue 1)).run ≠ .idle := by decide

theorem witness_WriteRegByRunState :
    (hosted .idle (.writeReg 15 1)).turns = .host (.writeReg 15 1) :: [.unit] ∧
    (hosted .idle (.writeReg 15 1)).run = .idle ∧ (hosted .busy (.writeReg 15 1)).run = .busy ∧
    (hosted .halted (.writeReg 15 1)).run = .halted := by decide

theorem witness_ReadsChangeNothing :
    (hosted .halted (.readReg 3)).turns = .host (.readReg 3) :: [.unit] ∧
    (hosted .halted (.readReg 3)).run ≠ .busy ∧ (hosted .busy (.readReg 3)).run = .busy ∧
    (hosted .idle (.readCsr 3)).turns = .host (.readCsr 3) :: [.unit] ∧ 3 ≤ (3#8).toNat ∧
    after (hosted .halted (.readReg 3)) (·.replies) = some [.value 9#32] := by decide

theorem witness_WriteThenReadRoundTrip :
    let s : State := { State.reset with turns := [.host (.writeReg 15 7), .host (.readReg 15)] }
    s.run = .idle ∧ (15 : RegIdx) ≠ 0#4 ∧
    s.turns = .host (.writeReg 15 7) :: .host (.readReg 15) :: [] := by decide

theorem witness_ResetTransaction : (hosted .busy .reset).turns = .host .reset :: [.unit] := by decide

theorem witness_PollingDoesNotChangeResult :
    let s : State := { operands 1 2 3 with
      command := 0x01312000#32, turns := [.host (.readCsr 0), .host (.readCsr 0), .unit] }
    s.run = .busy ∧ s.turns = List.replicate 2 (.host (.readCsr 0x00#8)) ++ .unit :: [] ∧
    (after { s with turns := [.unit] } (·.readReg 3)) = some 3#32 := by decide
end

section
/-! The state family: what a step, a host transaction and a CSR read can do, the status invariant along every step, and
the host port's obligations (10_state, 60_exceptions R241 to R246). -/

namespace Sys2Proof.Machine

/-! ## The host transactions, run state by run state (R44 to R49) -/

theorem hostIssue_idle (s : State) (w : Word) (h : s.run = .idle) :
    hostTurn (.issue w) s = { s with command := w, run := .busy }.reply .accepted := by
  simp [hostTurn, hostIssue, h]

theorem hostIssue_not_idle (s : State) (w : Word) (h : s.run ≠ .idle) :
    hostTurn (.issue w) s = s.reply .notAccepted := by
  cases hr : s.run with
  | idle => exact absurd hr h
  | busy | halted => simp [hostTurn, hostIssue, hr]

theorem hostWriteReg_idle (s : State) (i : RegIdx) (v : Word) (h : s.run = .idle) :
    hostTurn (.writeReg i v) s = (s.writeReg i v).reply .accepted := by
  simp [hostTurn, hostWriteReg, h]

theorem hostWriteReg_busy (s : State) (i : RegIdx) (v : Word) (h : s.run = .busy) :
    hostTurn (.writeReg i v) s = s.reply .notAccepted := by
  simp [hostTurn, hostWriteReg, h]

theorem hostWriteReg_halted (s : State) (i : RegIdx) (v : Word) (h : s.run = .halted) :
    hostTurn (.writeReg i v) s = s.reply .accepted := by
  simp [hostTurn, hostWriteReg, h]

theorem hostReadReg_busy (s : State) (i : RegIdx) (h : s.run = .busy) :
    hostTurn (.readReg i) s = s.reply .notAccepted := by
  simp [hostTurn, hostReadReg, h]

theorem hostReadReg_not_busy (s : State) (i : RegIdx) (h : s.run ≠ .busy) :
    hostTurn (.readReg i) s = s.reply (.value (s.readReg i)) := by
  cases hr : s.run with
  | busy => exact absurd hr h
  | idle | halted => simp [hostTurn, hostReadReg, hr]

@[simp] theorem hostTurn_readCsr (s : State) (a : BitVec 8) :
    hostTurn (.readCsr a) s = s.reply (.value (s.csr a)) := rfl

@[simp] theorem hostTurn_reset (s : State) : hostTurn .reset s = s.resetUnit.reply .accepted := rfl

/-- All a host transaction can do: answer only, write a register or issue a command in IDLE, or RESET. -/
theorem hostTurn_cases (tr : Transaction) (s : State) :
    (∃ r, hostTurn tr s = s.reply r) ∨
    (∃ w, tr = .issue w ∧ s.run = .idle ∧
      hostTurn tr s = { s with command := w, run := .busy }.reply .accepted) ∨
    (∃ i v, tr = .writeReg i v ∧ s.run = .idle ∧ hostTurn tr s = (s.writeReg i v).reply .accepted) ∨
    (tr = .reset ∧ hostTurn tr s = s.resetUnit.reply .accepted) := by
  cases tr with
  | issue w =>
    by_cases h : s.run = .idle
    · exact .inr (.inl ⟨w, rfl, h, hostIssue_idle _ w h⟩)
    · exact .inl ⟨_, hostIssue_not_idle _ w h⟩
  | writeReg i v =>
    cases h : s.run with
    | idle => exact .inr (.inr (.inl ⟨i, v, rfl, rfl, hostWriteReg_idle _ i v h⟩))
    | busy => exact .inl ⟨_, hostWriteReg_busy _ i v h⟩
    | halted => exact .inl ⟨_, hostWriteReg_halted _ i v h⟩
  | readReg i =>
    by_cases h : s.run = .busy
    · exact .inl ⟨_, hostReadReg_busy _ i h⟩
    · exact .inl ⟨_, hostReadReg_not_busy _ i h⟩
  | readCsr a => exact .inl ⟨_, rfl⟩
  | reset => exact .inr (.inr (.inr ⟨rfl, rfl⟩))

/-- In HALTED every transaction but RESET gives the host its answer and changes nothing (R36, R245). -/
theorem hostTurn_halted {tr : Transaction} {s : State} (h : s.run = .halted) (htr : tr ≠ .reset) :
    ∃ r, hostTurn tr s = s.reply r := by
  obtain hr | ⟨_, _, hi, _⟩ | ⟨_, _, _, hi, _⟩ | ⟨hr, _⟩ := hostTurn_cases tr s
  · exact hr
  · simp [h] at hi
  · simp [h] at hi
  · exact absurd hr htr

/-! ## The unit's turn and the step -/

/-- In BUSY, with a word that decodes, the unit's turn executes the instruction (R44, R90). -/
theorem unitTurn_decoded {s : State} {i : Instr} (h : s.run = .busy) (hd : decode s.command = .ok i) :
    unitTurn s = exec i s := by
  simp [unitTurn, complete, h, hd]

/-- All the unit's turn can do: wait outside BUSY, or end the command by completion or fault entry. -/
theorem unitTurn_cases {s t : State} (h : unitTurn s = .next t) :
    (s.run ≠ .busy ∧ t = s) ∨
    (s.run = .busy ∧ ((∃ rd v, t = s.finish rd v) ∨ ∃ c, t = s.raise c)) := by
  by_cases hb : s.run = .busy
  · refine .inr ⟨hb, ?_⟩
    obtain ⟨i, -, he⟩ | ⟨_, -, he⟩ := unitTurn_busy hb
    · obtain ⟨v, hv⟩ | ⟨c, hc⟩ := exec_ends i s
      · exact .inl ⟨i.rd, v, by simpa [he, hv] using h.symm⟩
      · exact .inr ⟨c, by simpa [he, hc] using h.symm⟩
    · exact .inr ⟨_, by simpa [he] using h.symm⟩
  · exact .inl ⟨hb, by simpa [unitTurn_waits hb] using h.symm⟩

/-- A step of the host leads where its transaction does. -/
theorem step_host_eq {s t : State} {tr : Transaction} {rest : List Turn} (hs : s.turns = .host tr :: rest)
    (h : hostTurn tr { s with turns := rest } = t) : step s = .next t :=
  (step_host hs).trans (congrArg _ h)

/-- All a step can do: the unit's turn, given by the list or for want of one, or one host transaction. -/
theorem step_cases {s t : State} (h : step s = .next t) :
    ((s.turns = [] ∨ s.turns.head? = some .unit) ∧ unitTurn { s with turns := s.turns.tail } = .next t) ∨
    ∃ tr rest, s.turns = .host tr :: rest ∧ t = hostTurn tr { s with turns := rest } := by
  cases hs : s.turns with
  | nil =>
    have hself : { s with turns := [] } = s := by rw [← hs]
    exact .inl ⟨.inl rfl, by simpa [hself, step_no_turns hs] using h⟩
  | cons turn rest =>
    cases turn with
    | unit => exact .inl ⟨.inr rfl, by simpa [step_unit hs] using h⟩
    | host tr => exact .inr ⟨tr, rest, rfl, by simpa [step_host hs] using h.symm⟩

/-- A run of one more step continues from where the step leads. -/
theorem core_run_succ {s t : State} (h : step s = .next t) (k : Nat) : core.run (k + 1) s = core.run k t := by
  have hc : core.step s = .next t := h
  simp only [Host.Core.run, hc]

/-! ## The status invariant (R37, R38) -/

/-- The invariant speaks of the run state, CAUSE and FAULTCMD only. -/
theorem statusInv_congr {s t : State} (hrun : t.run = s.run) (hcause : t.cause = s.cause)
    (hfault : t.faultCmd = s.faultCmd) : t.StatusInv ↔ s.StatusInv := by
  simp only [State.StatusInv, hrun, hcause, hfault]

/-- A state that is not HALTED meets the invariant exactly when CAUSE and FAULTCMD are clear. -/
theorem statusInv_iff_of_not_halted {s : State} (h : s.run ≠ .halted) :
    s.StatusInv ↔ s.cause = none ∧ s.faultCmd = 0#32 := by
  simp [State.StatusInv, h]

/-- Fault entry establishes the invariant from any state (R242). -/
theorem statusInv_raise (s : State) (c : Cause) : (s.raise c).StatusInv := by
  simp [State.StatusInv]

/-- Completion keeps the invariant when the unit is not HALTED (R90). -/
theorem statusInv_finish {s : State} (hi : s.StatusInv) (h : s.run ≠ .halted) (rd : RegIdx) (v : Word) :
    (s.finish rd v).StatusInv := by
  rw [statusInv_iff_of_not_halted h] at hi
  rw [statusInv_iff_of_not_halted (by simp)]
  simpa using hi

/-- The unit's turn keeps the invariant. -/
theorem unitTurn_statusInv {s t : State} (hi : s.StatusInv) (h : unitTurn s = .next t) : t.StatusInv := by
  obtain ⟨-, rfl⟩ | ⟨hb, ⟨rd, v, rfl⟩ | ⟨c, rfl⟩⟩ := unitTurn_cases h
  · exact hi
  · exact statusInv_finish hi (by simp [hb]) rd v
  · exact statusInv_raise s c

/-- A host transaction keeps the invariant. -/
theorem hostTurn_statusInv {s : State} (hi : s.StatusInv) (tr : Transaction) : (hostTurn tr s).StatusInv := by
  obtain ⟨r, h⟩ | ⟨w, -, hidle, h⟩ | ⟨i, v, -, -, h⟩ | ⟨-, h⟩ := hostTurn_cases tr s <;> rw [h]
  · exact (statusInv_congr rfl rfl rfl).2 hi
  · rw [statusInv_iff_of_not_halted (by simp [hidle])] at hi
    rwa [statusInv_iff_of_not_halted (by simp)]
  · exact (statusInv_congr (by simp) (by simp) (by simp)).2 hi
  · simp [State.StatusInv]

/-- Settles O49: by the step's cases, the unit's turn and each host transaction keep the invariant. -/
theorem stepKeepsStatusInv : Obligations.StepKeepsStatusInv := by
  intro s t hi h
  have hi' (ts) : State.StatusInv { s with turns := ts } := (statusInv_congr rfl rfl rfl).2 hi
  obtain ⟨-, hu⟩ | ⟨tr, rest, -, rfl⟩ := step_cases h
  · exact unitTurn_statusInv (hi' _) hu
  · exact hostTurn_statusInv (hi' rest) tr

/-- Settles O43: a completion writes x0, which has no storage, and a fault writes no register (R31). -/
theorem zeroRegisterIsHardwired : Obligations.ZeroRegisterIsHardwired := by
  refine fun i s => ⟨readReg_zero s, fun hrd => ?_⟩
  obtain ⟨v, h⟩ | ⟨c, h⟩ := exec_ends i s
  · exact ⟨_, h, by simp [hrd]⟩
  · exact ⟨_, h, raise_regs s c⟩

/-- Settles O52: neither the unit's turn nor a transaction other than RESET changes the unit in HALTED. -/
theorem haltedUntilReset : Obligations.HaltedUntilReset := by
  intro s t hh hr h
  obtain ⟨-, hu⟩ | ⟨tr, rest, hs, rfl⟩ := step_cases h
  · obtain ⟨-, rfl⟩ | ⟨hb, -⟩ := unitTurn_cases hu
    · exact ⟨hh, rfl, rfl, rfl⟩
    · simp [hh] at hb
  · have htr : tr ≠ .reset := by rintro rfl; simp [hs] at hr
    obtain ⟨r, hq⟩ := hostTurn_halted (s := { s with turns := rest }) hh htr
    rw [hq]
    exact ⟨hh, rfl, rfl, rfl⟩

/-- Settles O46: the unit's turn in BUSY executes what the command word decodes to. -/
theorem stepRunsDecodedCommand : Obligations.StepRunsDecodedCommand :=
  fun s _ hb hd =>
    ⟨fun rest hs => (step_unit hs).trans (unitTurn_decoded (s := { s with turns := rest }) hb hd),
      fun hs => (step_no_turns hs).trans (unitTurn_decoded hb hd)⟩

/-! ## The CSRs (R37 to R40) -/

@[simp] theorem csr_status (s : State) : s.csr 0x00#8 = s.statusWord := rfl
@[simp] theorem csr_faultCmd (s : State) : s.csr 0x01#8 = s.faultCmd := rfl
@[simp] theorem csr_config (s : State) : s.csr 0x02#8 = configWord := rfl

/-- Every index from 3 on is reserved and reads 0 (R40). -/
theorem csr_reserved (s : State) {a : BitVec 8} (h : 3 ≤ a.toNat) : s.csr a = 0#32 := by
  have hne : ∀ b : BitVec 8, b.toNat < 3 → a ≠ b := fun b hb e => by subst e; omega
  simp [State.csr, hne 0x00#8 (by decide), hne 0x01#8 (by decide), hne 0x02#8 (by decide)]

/-- STATUS as a number: the fields at their places, the reserved bits adding nothing (R37). -/
theorem statusWord_toNat (s : State) :
    s.statusWord.toNat = s.causeCode.toNat * 256 + s.haltedBit.toNat * 2 + s.busyBit.toNat := by
  have h : s.statusWord.toNat =
    (0#16 ++ s.causeCode ++ 0#6 ++ s.haltedBit ++ s.busyBit : BitVec (16 + 8 + 6 + 1 + 1)).toNat := rfl
  simp only [h, append_toNat, BitVec.toNat_ofNat]
  omega

theorem busyBit_toNat (s : State) : s.busyBit.toNat = if s.run = .busy then 1 else 0 := by
  unfold State.busyBit; split <;> rfl

theorem haltedBit_toNat (s : State) : s.haltedBit.toNat = if s.run = .halted then 1 else 0 := by
  unfold State.haltedBit; split <;> rfl

/-- Bit 0 of STATUS is BUSY. -/
theorem statusWord_bit_busy (s : State) : s.statusWord.getLsbD 0 = true ↔ s.run = .busy := by
  rw [BitVec.getLsbD, Nat.testBit_zero, decide_eq_true_iff, statusWord_toNat, busyBit_toNat]
  by_cases hb : s.run = .busy
  · simp only [hb, if_true, iff_true]; omega
  · simp only [hb, if_false, iff_false]; omega

/-- Bit 1 of STATUS is HALTED. -/
theorem statusWord_bit_halted (s : State) : s.statusWord.getLsbD 1 = true ↔ s.run = .halted := by
  have hlt := s.busyBit.isLt
  rw [BitVec.getLsbD, Nat.testBit_eq_decide_div_mod_eq, decide_eq_true_iff, statusWord_toNat, haltedBit_toNat]
  by_cases hh : s.run = .halted
  · simp only [hh, if_true, iff_true]; omega
  · simp only [hh, if_false, iff_false]; omega

/-- A field of STATUS as a number, with the ranges that place it. -/
theorem statusWord_field_toNat (s : State) (lo n : Nat) :
    (s.statusWord.extractLsb' lo n).toNat =
      (s.causeCode.toNat * 256 + s.haltedBit.toNat * 2 + s.busyBit.toNat) / 2 ^ lo % 2 ^ n ∧
    s.causeCode.toNat < 256 ∧ s.haltedBit.toNat < 2 ∧ s.busyBit.toNat < 2 :=
  ⟨by rw [BitVec.extractLsb'_toNat, statusWord_toNat, Nat.shiftRight_eq_div_pow],
    s.causeCode.isLt, s.haltedBit.isLt, s.busyBit.isLt⟩

/-- Bits 15:8 of STATUS are the cause code. -/
theorem statusWord_cause (s : State) : s.statusWord.extractLsb' 8 8 = s.causeCode := by
  have h := statusWord_field_toNat s 8 8
  exact BitVec.eq_of_toNat_eq (by omega)

theorem statusWord_reserved_low (s : State) : s.statusWord.extractLsb' 2 6 = 0#6 := by
  have h := statusWord_field_toNat s 2 6
  exact BitVec.eq_of_toNat_eq (by rw [BitVec.toNat_ofNat]; omega)

theorem statusWord_reserved_high (s : State) : s.statusWord.extractLsb' 16 16 = 0#16 := by
  have h := statusWord_field_toNat s 16 16
  exact BitVec.eq_of_toNat_eq (by rw [BitVec.toNat_ofNat]; omega)

/-- The codes of R241 are 1 to 6. -/
theorem Cause.code_range (c : Cause) : 1 ≤ c.code.toNat ∧ c.code.toNat ≤ 6 := by
  cases c <;> decide

theorem causeCode_none {s : State} (h : s.cause = none) : s.causeCode = 0#8 := by
  simp [State.causeCode, h]

theorem causeCode_some {s : State} {c : Cause} (h : s.cause = some c) : s.causeCode = c.code := by
  simp [State.causeCode, h]

theorem causeCode_le (s : State) : s.causeCode.toNat ≤ 6 := by
  cases h : s.cause with
  | none => simp [causeCode_none h]
  | some c => simpa [causeCode_some h] using c.code_range.2

/-- The code shown is 0 exactly when there is no cause. -/
theorem causeCode_ne_zero (s : State) : s.causeCode ≠ 0#8 ↔ s.cause.isSome = true := by
  cases h : s.cause with
  | none => simp [causeCode_none h]
  | some c =>
    have hc : c.code ≠ 0#8 := fun e => by simpa [e] using c.code_range.1
    simpa [causeCode_some h] using hc

/-- STATUS is 0 in IDLE with no cause. -/
theorem statusWord_clear {s : State} (hrun : s.run = .idle) (hcause : s.cause = none) : s.statusWord = 0#32 := by
  simp [State.statusWord, State.haltedBit, State.busyBit, hrun, causeCode_none hcause]

/-- Settles O51: field by field, the invariant relating CAUSE to HALTED. -/
theorem statusRegisterFields : Obligations.StatusRegisterFields := by
  intro s hi
  simp only [csr_status, statusWord_cause]
  have hcause := (causeCode_ne_zero s).trans (hi.1.trans (statusWord_bit_halted s).symm)
  refine ⟨statusWord_bit_busy s, statusWord_bit_halted s, ?_, statusWord_reserved_low s, statusWord_reserved_high s,
    causeCode_le s, hcause, causeCode_none, causeCode_some, causeCode_some, causeCode_some, causeCode_some,
    causeCode_some, causeCode_some⟩
  rw [statusWord_bit_busy, statusWord_bit_halted]
  rintro ⟨hb, hh⟩
  simp [hb] at hh

/-- Settles O50: the reset state is IDLE with CAUSE and FAULTCMD clear. -/
theorem resetState : Obligations.ResetState :=
  ⟨rfl, statusWord_clear rfl rfl, rfl, rfl, readReg_zero _,
    (statusInv_iff_of_not_halted (by simp [State.reset])).2 ⟨rfl, rfl⟩⟩

/-- Settles O53: ISSUE's two answers, by the run state (R44). -/
theorem issueOnlyWhenIdle : Obligations.IssueOnlyWhenIdle :=
  fun _ w _ hs =>
    ⟨fun h => step_host_eq hs (hostIssue_idle _ w h), fun h => step_host_eq hs (hostIssue_not_idle _ w h)⟩

/-- WRITE_REG in IDLE: the unit stays IDLE, and the register written is the only one changed (R31, R45). -/
theorem step_writeReg_idle {s : State} {i : RegIdx} {v : Word} {rest : List Turn} (h : s.run = .idle)
    (hs : s.turns = .host (.writeReg i v) :: rest) :
    ∃ t, step s = .next t ∧ t.run = .idle ∧ t.turns = rest ∧ t.replies = .accepted :: s.replies ∧
      t.cause = s.cause ∧ t.faultCmd = s.faultCmd ∧
      ∀ r, t.readReg r = if r = i ∧ i ≠ 0#4 then v else s.readReg r :=
  ⟨_, step_host_eq hs (hostWriteReg_idle _ i v h), by simpa using h, by simp, by simp, by simp, by simp,
    fun r => by simp [readReg_writeReg]⟩

/-- Settles O54: WRITE_REG's three answers, by the run state (R31, R45). -/
theorem writeRegByRunState : Obligations.WriteRegByRunState := by
  intro s i v rest hs
  refine ⟨fun h => ?_, fun h => step_host_eq hs (hostWriteReg_busy _ i v h),
    fun h => step_host_eq hs (hostWriteReg_halted _ i v h)⟩
  obtain ⟨t, hstep, hrun, -, hrest⟩ := step_writeReg_idle h hs
  exact ⟨t, hstep, hrun, hrest⟩

/-- READ_REG outside BUSY answers the register and changes nothing of the unit (R46). -/
theorem step_readReg_not_busy {s : State} {i : RegIdx} {rest : List Turn} (h : s.run ≠ .busy)
    (hs : s.turns = .host (.readReg i) :: rest) :
    step s = .next { s with turns := rest, replies := .value (s.readReg i) :: s.replies } :=
  step_host_eq hs (hostReadReg_not_busy _ i h)

/-- Settles O55: each read's answer, by the run state and by the index (R39, R40, R46, R47). -/
theorem readsChangeNothing : Obligations.ReadsChangeNothing := by
  refine fun s rest => ⟨fun i hs => ⟨fun h => step_readReg_not_busy h hs,
    fun h => step_host_eq hs (hostReadReg_busy _ i h)⟩, fun a hs => ?_⟩
  exact ⟨s.csr a, step_host_eq hs (hostTurn_readCsr _ a), fun h => h ▸ csr_status s, fun h => h ▸ csr_faultCmd s,
    fun h => h ▸ csr_config s, csr_reserved s⟩

/-- Settles O56: the write leaves the unit IDLE, so the read that follows is accepted and returns the value (R46). -/
theorem writeThenReadRoundTrip : Obligations.WriteThenReadRoundTrip := by
  intro s i v rest hidle hi hs
  obtain ⟨u, hwrite, hrun, hturns, hreplies, -, -, hreads⟩ := step_writeReg_idle hidle hs
  have hvalue : u.readReg i = v := by simp [hreads, hi]
  have hread := step_readReg_not_busy (by simp [hrun]) hturns
  exact ⟨_, (core_run_succ hwrite 1).trans (core_run_succ hread 0), by simp only [hvalue, hreplies]⟩

/-- Settles O57: RESET's answer is the same in every run state (R42, R49). -/
theorem resetTransaction : Obligations.ResetTransaction :=
  fun _ _ hs =>
    ⟨_, step_host_eq hs (hostTurn_reset _), rfl, statusWord_clear rfl rfl, rfl, rfl, readReg_zero _, rfl, rfl⟩

end Sys2Proof.Machine
end

section
/-! The memory family: the contents of the four ROMs (20_memory R53 to R56). Each ROM is compared with its listed table
once, as a list; the entry at an index follows from the equality and the length of the table. -/

namespace Sys2Proof.Machine

/-- Inside a list the optional lookup and the lookup with a default agree. -/
theorem getElem?_eq_some_getD {α : Type} {l : List α} {k : Nat} (d : α) (h : k < l.length) :
    l[k]? = some (l.getD k d) := by
  rw [List.getElem?_eq_getElem h, List.getD_eq_getElem l d h]

/-- The QS ROM is the table of R53; the two are cut at different rows. -/
theorem qsTable_eq_listedCosine : qsTable = listedCosine := by decide +kernel

/-- The ATAN ROM is the table of R54. -/
theorem atanTable_eq_listedArctangent : atanTable = listedArctangent := rfl

theorem listedCosine_getElem? {k : Nat} (h : k ≤ 360) : listedCosine[k]? = some (qsRom k) := by
  obtain ⟨hlength, -⟩ := rom_sizes
  rw [← qsTable_eq_listedCosine]
  exact getElem?_eq_some_getD 0 (by omega)

theorem listedArctangent_getElem? {i : Nat} (h : i < 12) : listedArctangent[i]? = some (atanRom i) := by
  obtain ⟨-, hlength, -⟩ := rom_sizes
  rw [← atanTable_eq_listedArctangent]
  exact getElem?_eq_some_getD 0 (by omega)

/-- No entry of the QS ROM is above the entry before it. -/
theorem qsTable_isChain_ge : qsTable.IsChain (· ≥ ·) := by decide +kernel

theorem qsRom_succ_le {k : Nat} (h : k < 360) : qsRom (k + 1) ≤ qsRom k := by
  obtain ⟨hlength, -⟩ := rom_sizes
  have hk : k + 1 < qsTable.length := by omega
  simpa only [qsRom, List.getD_eq_getElem qsTable 0 hk, List.getD_eq_getElem qsTable 0 (Nat.lt_of_succ_lt hk)]
    using qsTable_isChain_ge.getElem k hk

/-- The angles of R54 sum to the bound on what the vectoring unit can accumulate. -/
theorem listedArctangent_sum : listedArctangent.sum = 102252 := rfl

/-- The entries of R55. -/
theorem invFactRom_entries :
    invFactRom 2 = 512 ∧ invFactRom 3 = 171 ∧ invFactRom 4 = 43 ∧ invFactRom 5 = 9 ∧ invFactRom 6 = 1 := by decide

/-- The entries of R56. -/
theorem constRom_entries : constRom 0 = 3217 ∧ constRom 1 = 2784 ∧ constRom 2 = 710 ∧ constRom 3 = 308 := by decide

/-- Settles O60: QS and ATAN entry by entry from the equality with the listed tables, QS falling by its chain of
neighbours, the short ROMs by their entries. -/
theorem romEntriesAreListed : Obligations.RomEntriesAreListed := by
  obtain ⟨hfirst, hlast⟩ := qsRom_ends
  obtain ⟨h2, h3, h4, h5, h6⟩ := invFactRom_entries
  exact ⟨fun _ => listedCosine_getElem?, hfirst, hlast, fun _ => qsRom_succ_le,
    fun _ => listedArctangent_getElem?, listedArctangent_sum, h2, h3, h4, h5, h6, constRom_entries⟩

end Sys2Proof.Machine
end

section
/-! The encoding family: decoding inverts encoding and answers for encodings only, every command ends, and the words of
the pseudo-instructions (30_encoding R80 to R90). -/

namespace Sys2Proof

/-! ## When a format's decoder answers (R81) -/

section Formats

variable {w : Word} {i : Instr}

theorem decodeR2_eq_ok {mk} :
    decodeR2 mk w = .ok i ↔ (rs2Of w = 0#4 ∧ rs3Of w = 0#4 ∧ immOf w = 0#8) ∧ mk (rdOf w) (rs1Of w) = i :=
  checked_eq_ok.trans (and_congr_left' (and_mustBeZeroR2 w))

theorem decodeR3_eq_ok {mk} :
    decodeR3 mk w = .ok i ↔ (rs3Of w = 0#4 ∧ immOf w = 0#8) ∧ mk (rdOf w) (rs1Of w) (rs2Of w) = i :=
  checked_eq_ok.trans (and_congr_left' (and_mustBeZeroR3 w))

theorem decodeR4_eq_ok {mk} :
    decodeR4 mk w = .ok i ↔ immOf w = 0#8 ∧ mk (rdOf w) (rs1Of w) (rs2Of w) (rs3Of w) = i :=
  checked_eq_ok.trans (and_congr_left' (and_mustBeZeroR4 w))

theorem decodeK_eq_ok {mk} :
    decodeK mk w = .ok i ↔
      (rs1Of w = 0#4 ∧ rs2Of w = 0#4 ∧ rs3Of w = 0#4 ∧ (immOf w).toNat < 4) ∧ mk (rdOf w) (immOf w) = i :=
  checked_eq_ok.trans (and_congr_left' (and_mustBeZeroK w))

end Formats

/-! ## Decoding and encoding are inverse (R82 to R85, R89) -/

/-- CONST's word decodes back for `k` in 0 to 3 only (R83). -/
theorem decode_encode_const (rd : RegIdx) (k : BitVec 8) :
    decode (encode (.const rd k)) = if k.toNat < 4 then .ok (.const rd k) else .error .mustBeZero := by
  simp [encode, decode, decodeK_pack]

/-- The opcode selects the format's decoder, which reads back the fields `pack` placed (`decodeR2_pack` to
`decodeR4_pack`). -/
theorem decode_encode {i : Instr} (h : i.wf = true) : decode (encode i) = .ok i := by
  cases i with
  | const rd k => rw [decode_encode_const, if_pos (by simpa [Instr.wf] using h)]
  | _ => simp [encode, decode]

theorem opcodeOf_eq_ofNat {w : Word} {n : Nat} (h : (opcodeOf w).toNat = n) : opcodeOf w = BitVec.ofNat 8 n := by
  rw [← h, BitVec.ofNat_toNat, BitVec.setWidth_eq]

/-- A word that decodes is rebuilt field by field: its opcode chose the format's decoder, which read the fields the
format uses and found every other bit 0. -/
theorem encode_of_decode {w : Word} {i : Instr} (h : decode w = .ok i) : encode i = w := by
  unfold decode at h
  split at h
  case h_42 => cases h -- an unassigned opcode
  all_goals
    rename_i hop
    simp only [decodeR2_eq_ok, decodeR3_eq_ok, decodeR4_eq_ok, decodeK_eq_ok] at h
    obtain ⟨hzero, rfl⟩ := h
    refine Eq.trans ?_ (pack_eta w)
    simp [encode, opcodeOf_eq_ofNat hop, hzero]

/-- Decoding answers well-formed instructions only: CONST's `k` is the one field that could be ill-formed (R83). -/
theorem wf_of_decode {w : Word} {i : Instr} (h : decode w = .ok i) : i.wf = true := by
  cases i with
  | const rd k =>
    rw [← encode_of_decode h, decode_encode_const] at h
    simpa [Instr.wf] using h
  | _ => rfl

/-- Settles O39: by format, the decoder the opcode selects reads back the packed fields. -/
theorem decodeOfEncode : Obligations.DecodeOfEncode := fun _ => decode_encode

/-- Settles O40: the instruction a word decodes to is well-formed and packs back into the word. -/
theorem decodeAcceptsOnlyEncodings : Obligations.DecodeAcceptsOnlyEncodings :=
  fun _ _ h => ⟨wf_of_decode h, encode_of_decode h⟩

/-- Settles O38: fixed words, each decoded by evaluation. -/
theorem specWordsDecode : Obligations.SpecWordsDecode := by
  unfold Obligations.SpecWordsDecode
  decide

/-! ## A packed word as the or of its shifted fields (R80) -/

theorem pack_eq_or (op : BitVec 8) (d a b c : RegIdx) (k : BitVec 8) :
    pack op d a b c k = op.setWidth 32 <<< 24 ||| d.setWidth 32 <<< 20 ||| a.setWidth 32 <<< 16 |||
      b.setWidth 32 <<< 12 ||| c.setWidth 32 <<< 8 ||| k.setWidth 32 := by
  have h : pack op d a b c k = (op ++ d ++ a ++ b ++ c ++ k).setWidth 32 := (BitVec.setWidth_eq _).symm
  simp only [h, BitVec.setWidth_append_eq_shiftLeft_setWidth_or, BitVec.shiftLeft_or_distrib,
    ← BitVec.shiftLeft_add]

end Sys2Proof

namespace Sys2Proof.Machine

/-! ## How a command ends (R85, R90, R242) -/

/-- Settles O42: the two ends of a command, each with its frame. -/
theorem everyCommandCompletesOrFaults : Obligations.EveryCommandCompletesOrFaults :=
  fun i s => (exec_ends i s).imp (fun ⟨v, h⟩ => ⟨v, completes_of_finish h⟩) fun ⟨c, h⟩ => ⟨c, faults_of_raise h⟩

/-- In BUSY, a word that no well-formed instruction encodes to raises ILLEGAL_INSTRUCTION (R85). -/
theorem unitTurn_illegal {s : State} (hb : s.run = .busy) (hw : ∀ i : Instr, i.wf = true → encode i ≠ s.command) :
    unitTurn s = .next (s.raise .illegalInstruction) := by
  obtain ⟨i, hd, -⟩ | ⟨_, -, h⟩ := unitTurn_busy hb
  · exact absurd (encode_of_decode hd) (hw i (wf_of_decode hd))
  · exact h

/-- After a fault entry the CAUSE field of STATUS is the cause's code (R37, R241). -/
theorem raise_statusCause (s : State) (c : Cause) : ((s.raise c).csr 0x00#8).extractLsb' 8 8 = c.code := by
  rw [csr_status, statusWord_cause, causeCode_some (raise_cause s c)]

/-- Settles O47: with the turn on the list or no turn left, the step is the unit's turn, and the word does not decode. -/
theorem illegalWordFaults : Obligations.IllegalWordFaults :=
  fun s hb hw =>
    ⟨fun rest hs => ⟨_, (step_unit hs).trans (unitTurn_illegal (s := { s with turns := rest }) hb hw),
        faulted_raise _ _, raise_statusCause _ _⟩,
      fun hs => ⟨_, (step_no_turns hs).trans (unitTurn_illegal hb hw), faulted_raise _ _, raise_statusCause _ _⟩⟩

/-! ## ADD and SUB as operations on patterns (R88, R100, R101) -/

theorem ofScalar_add (v w : Word) : ofScalar (v.toInt + w.toInt) = v + w := by
  simp [ofScalar, BitVec.ofInt_add]

theorem ofScalar_sub (v w : Word) : ofScalar (v.toInt - w.toInt) = v - w :=
  BitVec.eq_of_toInt_eq (by rw [ofScalar_toInt, wrap32_eq_bmod, BitVec.toInt_sub])

theorem completes_add (s : State) (rd rs1 rs2 : RegIdx) :
    Completes (.add rd rs1 rs2) s (s.readReg rs1 + s.readReg rs2) := by
  rw [← ofScalar_add]
  exact completes_of_finish rfl

theorem completes_sub (s : State) (rd rs1 rs2 : RegIdx) :
    Completes (.sub rd rs1 rs2) s (s.readReg rs1 - s.readReg rs2) := by
  rw [← ofScalar_sub]
  exact completes_of_finish rfl

/-- Settles O41: each word is the packing of its expansion, and an operand x0 adds nothing. -/
theorem pseudoInstructions : Obligations.PseudoInstructions := by
  intro s d r
  refine ⟨by decide, ?nop, ?movWord, ?mov, ?negWord, ?neg, ?clrWord, ?clr⟩
  case nop =>
    obtain ⟨t, h, hc⟩ := completes_add s 0 0 0
    exact ⟨t, h, by simp [hc.regs, Instr.rd]⟩
  case movWord => simpa [encode, pack_eq_or] using decode_encode (i := .add d r 0) rfl
  case negWord => simpa [encode, pack_eq_or] using decode_encode (i := .sub d 0 r) rfl
  case clrWord => simpa [encode, pack_eq_or] using decode_encode (i := .add d 0 0) rfl
  case mov => simpa using completes_add s d r 0
  case neg => simpa using completes_sub s d 0 r
  case clr => simpa using completes_add s d 0 0

end Sys2Proof.Machine
end

section
/-! The scalar arithmetic family: sums, products, quotients, remainders, shifts, comparisons, conversions and mixed
numbers (40_scalar_arith R100 to R116). -/

namespace Sys2Proof.Machine

/-! ## How a scalar command ends (R90) -/

section Ends

variable {i : Instr} {s : State}

/-- `completes_of_finish` for a result given in other terms than the meaning's own. -/
theorem completes_of_finish_eq {v w : Word} (h : exec i s = .next (s.finish i.rd v)) (hv : v = w) :
    Completes i s w := hv ▸ completes_of_finish h

theorem completes_of_conclude {r : Except Cause Int} {v : Int} (h : exec i s = s.conclude i.rd r) (hr : r = .ok v) :
    Completes i s (ofScalar v) := completes_of_finish (by rw [h, hr, conclude_ok])

theorem faults_of_conclude {r : Except Cause Int} {c : Cause} (h : exec i s = s.conclude i.rd r) (hr : r = .error c) :
    Faults i s c := faults_of_raise (by rw [h, hr, conclude_error])

end Ends

/-! ## Addition and subtraction (R100, R101) -/

/-- Settles O1: the packed words decode back, and the sum and difference of patterns wrap. -/
theorem addSubWrapAround : Obligations.AddSubWrapAround := fun s rd rs1 rs2 =>
  ⟨decode_encode (i := .add rd rs1 rs2) rfl, completes_add s rd rs1 rs2,
    decode_encode (i := .sub rd rs1 rs2) rfl, completes_sub s rd rs1 rs2⟩

/-! ## Multiplication (R102) -/

theorem ofScalar_fxmul (a b : Int) : ofScalar (fxmul a b) = ofScalar (roundedProduct a b) := by
  rw [fxmul_eq, ofScalar_wrap32, roundedProduct]

/-- The widened product of two Scalars: the square of the least raw is its maximum, the least raw times the greatest
its minimum. -/
theorem toInt_mul_range (v w : Word) :
    -(2 ^ 62) + 2 ^ 31 ≤ v.toInt * w.toInt ∧ v.toInt * w.toInt ≤ 2 ^ 62 := by
  obtain ⟨hv, hv'⟩ := toInt_range v
  obtain ⟨hw, hw'⟩ := toInt_range w
  have hlow := mul_nonneg (sub_nonneg.2 hv) (sub_nonneg.2 hw)
  have hhigh := mul_nonneg (sub_nonneg.2 (Int.le_sub_one_of_lt hv')) (sub_nonneg.2 (Int.le_sub_one_of_lt hw'))
  have hcross := mul_nonneg (sub_nonneg.2 hv) (sub_nonneg.2 hw'.le)
  have hcross' := mul_nonneg (sub_nonneg.2 hv'.le) (sub_nonneg.2 hw)
  exact ⟨by linarith only [hlow, hhigh], by linarith only [hcross, hcross', hv, hw]⟩

/-- The rounding error is at most half a raw, and a tie goes up. -/
theorem roundedProduct_nearest (a b : Int) :
    a * b - 512 < 1024 * roundedProduct a b ∧ 1024 * roundedProduct a b ≤ a * b + 512 := by
  simp only [roundedProduct]
  omega

/-- 1.0 is neutral. -/
theorem roundedProduct_one (a : Int) : roundedProduct a 1024 = a := by
  simp only [roundedProduct]
  omega

theorem completes_mul (s : State) (rd rs1 rs2 : RegIdx) :
    Completes (.mul rd rs1 rs2) s (ofScalar (roundedProduct (s.scalar rs1) (s.scalar rs2))) :=
  completes_of_finish_eq rfl (ofScalar_fxmul _ _)

/-- Settles O2: the model's product is the rounded one, whose range, error and neutral factor are read off its
definition. -/
theorem mulRoundsToNearest : Obligations.MulRoundsToNearest := by
  intro s rd rs1 rs2 a b
  refine ⟨decode_encode (i := .mul rd rs1 rs2) rfl, completes_mul s rd rs1 rs2, toInt_mul_range _ _,
    roundedProduct_nearest a b, fun hb => ?_⟩
  have h : Completes (.mul rd rs1 rs2) s (ofScalar (roundedProduct a b)) := completes_mul s rd rs1 rs2
  rwa [hb, roundedProduct_one, ofScalar_self] at h

/-! ## Division (R103, R116) -/

/-- A truncated quotient that is not negative is the quotient of the magnitudes. -/
theorem tdiv_of_mul_nonneg {a b : Int} (h : 0 ≤ a * b) : a.tdiv b = (a.natAbs : Int) / b.natAbs := by
  have hq : 0 ≤ a.tdiv b := by
    obtain ⟨ha, hb⟩ | ⟨ha, hb⟩ := mul_nonneg_iff.1 h
    · exact Int.tdiv_nonneg ha hb
    · exact Int.tdiv_nonneg_of_nonpos_of_nonpos ha hb
  rw [Int.eq_natAbs_of_nonneg hq, Int.natAbs_tdiv]
  exact Int.natCast_ediv _ _

/-- A truncated quotient that is not positive is the quotient of the magnitudes, negated. -/
theorem tdiv_of_mul_nonpos {a b : Int} (h : a * b ≤ 0) : a.tdiv b = -((a.natAbs : Int) / b.natAbs) := by
  have hq := tdiv_of_mul_nonneg (a := -a) (b := b) (by linarith)
  rw [Int.neg_tdiv, Int.natAbs_neg] at hq
  omega

/-- Adding one and halving a floored quotient rounds its half to the nearest, ties up. -/
theorem ediv_add_one_ediv_two (x : Int) {n : Int} (hn : 0 < n) : (x / n + 1) / 2 = (x + n) / (2 * n) := by
  have hone : x / n + 1 = (x + n) / n := by
    rw [Int.add_ediv_of_dvd_right (dvd_refl n), Int.ediv_self hn.ne']
  rw [hone, Int.ediv_ediv_of_nonneg hn.le, mul_comm n]

/-- R103's corner cases: halving the truncated quotient at double scale. -/
theorem halved_tdiv_eq_roundedQuotient (a : Int) {b : Int} (hb : b ≠ 0) :
    ((a * 2048).tdiv b + 1) / 2 = roundedQuotient a b := by
  have hpos : 0 < (b.natAbs : Int) := by omega
  have hscale : ((a * 2048).natAbs : Int) = 2048 * a.natAbs := by omega
  unfold roundedQuotient
  split
  case isTrue h =>
    rw [tdiv_of_mul_nonneg (by linarith), hscale, ediv_add_one_ediv_two _ hpos]
  case isFalse h =>
    have hhalf : ((1024 * a).natAbs : Int) / b.natAbs = 2048 * a.natAbs / b.natAbs / 2 := by
      rw [Int.ediv_ediv_of_nonneg hpos.le, mul_comm _ 2, ← Int.mul_ediv_mul_of_pos _ _ (two_pos : (0 : Int) < 2)]
      congr 1
      omega
    rw [tdiv_of_mul_nonpos (by linarith), tdiv_of_mul_nonpos (by linarith), hscale, hhalf]
    omega

theorem fxdiv_of_ne_zero (a : Int) {b : Int} (hb : b ≠ 0) : fxdiv a b = .ok (wrap32 (roundedQuotient a b)) := by
  rw [fxdiv_ok hb, halved_tdiv_eq_roundedQuotient a hb]

/-- A command whose function is `fxdiv` faults on a zero divisor. -/
theorem faults_of_fxdiv {i : Instr} {s : State} {a b : Int} (h : exec i s = s.conclude i.rd (fxdiv a b)) (hb : b = 0) :
    Faults i s .divideByZero := faults_of_conclude h (hb ▸ fxdiv_zero a)

/-- A command whose function is `fxdiv` completes with the rounded quotient on any other divisor. -/
theorem completes_of_fxdiv {i : Instr} {s : State} {a b : Int} (h : exec i s = s.conclude i.rd (fxdiv a b))
    (hb : b ≠ 0) : Completes i s (ofScalar (roundedQuotient a b)) := by
  rw [← ofScalar_wrap32]
  exact completes_of_conclude h (fxdiv_of_ne_zero a hb)

/-- Settles O3: DIV and RATIO are one function of two registers. -/
theorem divRatioQuotient : Obligations.DivRatioQuotient := by
  intro s rd rs1 rs2 a b
  have ha := toInt_range (s.readReg rs1)
  exact ⟨decode_encode (i := .div rd rs1 rs2) rfl, decode_encode (i := .ratio rd rs1 rs2) rfl, by omega,
    fun hb => ⟨faults_of_fxdiv rfl hb, faults_of_fxdiv rfl hb⟩,
    fun hb => ⟨completes_of_fxdiv rfl hb, completes_of_fxdiv rfl hb⟩⟩

/-! ## Remainder (R104) -/

theorem fxmod_of_ne_zero (a : Int) {b : Int} (hb : b ≠ 0) : fxmod a b = .ok (a.tmod b) := by
  rw [fxmod, if_neg hb, trem_eq]

theorem natAbs_tmod_lt (a : Int) {b : Int} (hb : b ≠ 0) : (a.tmod b).natAbs < b.natAbs := by
  rw [Int.natAbs_tmod]
  exact Nat.mod_lt _ (Int.natAbs_pos.2 hb)

/-- A truncated remainder is 0 or has the sign of the dividend. -/
theorem tmod_mul_self_nonneg (a b : Int) : 0 ≤ a.tmod b * a := by
  obtain ha | ha := le_total 0 a
  · exact mul_nonneg (Int.tmod_nonneg b ha) ha
  · have h := Int.tmod_nonneg b (Int.neg_nonneg.2 ha)
    rw [Int.neg_tmod] at h
    exact mul_nonneg_of_nonpos_of_nonpos (Int.neg_nonneg.1 h) ha

/-- Settles O4: the remainder is the library's truncated one, with the truncated quotient as its multiple. -/
theorem modSignFollowsDividend : Obligations.ModSignFollowsDividend := by
  intro s rd rs1 rs2 a b
  refine ⟨decode_encode (i := .mod rd rs1 rs2) rfl, fun hb => faults_of_conclude rfl (if_pos hb), fun hb => ?_⟩
  exact ⟨a.tmod b, a.tdiv b, completes_of_conclude rfl (fxmod_of_ne_zero a hb), (Int.tdiv_mul_add_tmod a b).symm,
    natAbs_tmod_lt a hb, tmod_mul_self_nonneg a b⟩

/-! ## Shifts (R105, R106) -/

theorem shiftCount_eq (s : State) (r : RegIdx) : s.shiftCount r = (s.readReg r).toNat % 32 := by
  simp [State.shiftCount]

/-- `<<` of a register's value, with wrap, is the left shift of its pattern. -/
theorem ofScalar_shiftLeft (v : Word) (n : Nat) : ofScalar (shiftLeft v.toInt n) = v <<< n := by
  have hpow : BitVec.ofNat 32 (Nat.pow 2 n) = BitVec.twoPow 32 n :=
    BitVec.eq_of_toNat_eq (by simp [BitVec.toNat_twoPow])
  rw [shiftLeft, ofScalar, BitVec.ofInt_mul, BitVec.ofInt_toInt, BitVec.ofInt_natCast, hpow,
    BitVec.shiftLeft_eq_mul_twoPow]

/-- `>>` of a register's value is the arithmetic right shift of its pattern. -/
theorem ofScalar_asr (v : Word) (n : Nat) : ofScalar (asr v.toInt n) = v.sshiftRight n := by
  have h : asr v.toInt n = (v.sshiftRight n).toInt := by
    rw [BitVec.toInt_sshiftRight, Int.shiftRight_eq_div_pow]; rfl
  rw [h, ofScalar_self]

/-- Settles O5: the count is bits 4:0, and shifting the value is shifting the pattern. -/
theorem shiftsByCountModulo32 : Obligations.ShiftsByCountModulo32 := by
  intro s rd rs1 rs2
  rw [← shiftCount_eq]
  exact ⟨decode_encode (i := .shl rd rs1 rs2) rfl, completes_of_finish_eq rfl (ofScalar_shiftLeft _ _),
    decode_encode (i := .shr rd rs1 rs2) rfl, completes_of_finish_eq rfl (ofScalar_asr _ _)⟩

/-! ## Comparisons (R107 to R112) -/

theorem ofBool_of_iff {p q : Prop} [Decidable p] [Decidable q] (h : p ↔ q) :
    ofBool (decide p) = if q then 1#32 else 0#32 := by
  simp [ofBool, h]

/-- Settles O6: each comparison of signed values is the one of the patterns. -/
theorem comparisonsWriteBoolean : Obligations.ComparisonsWriteBoolean := fun _ rd rs1 rs2 =>
  ⟨⟨decode_encode (i := .cmpeq rd rs1 rs2) rfl, completes_of_finish_eq rfl (ofBool_of_iff BitVec.toInt_inj)⟩,
    ⟨decode_encode (i := .cmpne rd rs1 rs2) rfl,
      completes_of_finish_eq rfl ((ofBool_of_iff BitVec.toInt_inj.not).trans (ite_not _ _ _))⟩,
    ⟨decode_encode (i := .cmplt rd rs1 rs2) rfl,
      completes_of_finish_eq rfl (ofBool_of_iff BitVec.slt_iff_toInt_lt.symm)⟩,
    ⟨decode_encode (i := .cmple rd rs1 rs2) rfl,
      completes_of_finish_eq rfl (ofBool_of_iff BitVec.sle_iff_toInt_le.symm)⟩,
    ⟨decode_encode (i := .cmpgt rd rs1 rs2) rfl,
      completes_of_finish_eq rfl (ofBool_of_iff BitVec.slt_iff_toInt_lt.symm)⟩,
    ⟨decode_encode (i := .cmpge rd rs1 rs2) rfl,
      completes_of_finish_eq rfl (ofBool_of_iff BitVec.sle_iff_toInt_le.symm)⟩⟩

/-! ## Integer conversions (R113, R114) -/

theorem asr_fracBits (v : Int) : asr v Config.fracBits = v / 1024 := asr_eq v 10

/-- TOINT's quotient is in the Scalar range, so its pattern reads back as the floor. -/
theorem toInt_ofScalar_asr_floor (v : Word) :
    1024 * (ofScalar (asr v.toInt Config.fracBits)).toInt ≤ v.toInt ∧
      v.toInt < 1024 * (ofScalar (asr v.toInt Config.fracBits)).toInt + 1024 := by
  obtain ⟨hv, hv'⟩ := toInt_range v
  rw [ofScalar_toInt, asr_fracBits, wrap32_of_range (by omega) (by omega)]
  omega

/-- Settles O7: FROMINT is the shift of the pattern, TOINT the floor, which is in range. -/
theorem integerConversions : Obligations.IntegerConversions := fun _ rd rs1 =>
  ⟨decode_encode (i := .fromint rd rs1) rfl, completes_of_finish_eq rfl (ofScalar_shiftLeft _ 10),
    decode_encode (i := .toint rd rs1) rfl, _, completes_of_finish rfl, toInt_ofScalar_asr_floor _⟩

/-! ## Mixed numbers (R115) -/

theorem shiftLeft_fracBits (v : Int) : shiftLeft v Config.fracBits = 1024 * v :=
  (shiftLeft_eq v 10).trans (mul_comm _ _)

theorem mix_error_of_neg (i : Int) {n d : Int} (h : n < 0 ∨ d < 0) : mix i n d = .error .invalidArgument := if_pos h

theorem mix_error_of_zero (i : Int) {n d : Int} (hn : 0 ≤ n) (hd : d = 0) : mix i n d = .error .divideByZero := by
  simp [mix, hn.not_gt, hd]

theorem roundedQuotient_of_nonneg {n d : Int} (hn : 0 ≤ n) (hd : 0 ≤ d) :
    roundedQuotient n d = (2048 * n + d) / (2 * d) := by
  rw [roundedQuotient, if_pos (mul_nonneg hn hd), Int.natAbs_of_nonneg hn, Int.natAbs_of_nonneg hd]

/-- Wrapping does not reach the ten fraction bits. -/
theorem fracPart_wrap32 (v : Int) : fracPart (wrap32 v) = v % 1024 := by
  simp only [fracPart, wrap32]
  omega

/-- MIX past its checks: the masked fraction takes the sign of the integer part. -/
theorem mix_ok (i : Int) {n d : Int} (hn : 0 ≤ n) (hd : 0 < d) :
    mix i n d = .ok (wrap32 (if i < 0 then 1024 * i - (2048 * n + d) / (2 * d) % 1024
      else 1024 * i + (2048 * n + d) / (2 * d) % 1024)) := by
  have hsigns : ¬ (n < 0 ∨ d < 0) := by omega
  rw [mix, if_neg hsigns, fxdiv_of_ne_zero n hd.ne', roundedQuotient_of_nonneg hn hd.le]
  simp only [fracPart_wrap32, shiftLeft_fracBits]
  split <;> rfl

/-- Settles O8: the checks in their order, then the fraction by `fxdiv`. -/
theorem mixBuildsMixedNumber : Obligations.MixBuildsMixedNumber := by
  intro s rd rs1 rs2 rs3 i n d f
  have hmix (hn : 0 ≤ n) (hd : 0 < d) :
      Completes (.mix rd rs1 rs2 rs3) s (ofScalar (if i < 0 then 1024 * i - f else 1024 * i + f)) := by
    rw [← ofScalar_wrap32]
    exact completes_of_conclude rfl (mix_ok i hn hd)
  refine ⟨decode_encode (i := .mix rd rs1 rs2 rs3) rfl, fun h => faults_of_conclude rfl (mix_error_of_neg i h),
    fun hn hd => faults_of_conclude rfl (mix_error_of_zero i hn hd), fun hn hd hi => ?_, fun hn hd hi => ?_⟩
  · simpa only [if_pos hi, ofScalar] using hmix hn hd
  · simpa only [if_neg hi.not_gt, ofScalar] using hmix hn hd

end Sys2Proof.Machine
end

section
/-! The narrowing and named-constant family: NARROW as an operation on the 64-bit pattern, and CONST's function and word
(41_high_precision R140 to R142). -/

namespace Sys2Proof.Machine

/-! ## Narrowing (R140, R141) -/

/-- `wrap64` of a sum with the value of a 64-bit pattern is the addition of patterns. -/
theorem wrap64_toInt_add (x y : BitVec 64) : wrap64 (x.toInt + y.toInt) = (x + y).toInt := by
  rw [wrap64_eq_bmod, BitVec.toInt_add]

/-- The low 32 bits of `>>` of a pattern's value are the pattern's own bits from `n` up: the copies of the sign come in
above them. -/
theorem ofScalar_asr_extract {m n : Nat} (x : BitVec m) (h : n + 32 ≤ m) :
    ofScalar (asr x.toInt n) = x.extractLsb' n 32 := by
  have hasr : asr x.toInt n = (x.sshiftRight n).toInt := by
    rw [BitVec.toInt_sshiftRight, Int.shiftRight_eq_div_pow]; rfl
  have hlow : ofScalar (asr x.toInt n) = (x.sshiftRight n).setWidth 32 := by
    rw [hasr, ← BitVec.signExtend_eq_setWidth_of_le _ (by omega)]; rfl
  rw [hlow]
  refine BitVec.eq_of_getLsbD_eq fun i hi => ?_
  have hin : ¬ m ≤ i := by omega
  have hbit : n + i < m := by omega
  simp [BitVec.getLsbD_sshiftRight, hi, hin, hbit]

theorem ofScalar_narrow (x : BitVec 64) : ofScalar (narrow x.toInt) = (x + 0x200000#64).extractLsb' 22 32 := by
  have hbias : x.toInt + 2097152 = x.toInt + (0x200000#64).toInt := rfl
  rw [narrow, ofScalar_wrap32, hbias, wrap64_toInt_add, ofScalar_asr_extract _ (by decide)]

/-- Settles O9: the biased sum wraps as the patterns add, and the shift keeps bits 53:22 of it. -/
theorem narrowBiasThenShift : Obligations.NarrowBiasThenShift := fun _ rd rs1 rs2 =>
  ⟨decode_encode (i := .narrow rd rs1 rs2) rfl, completes_of_finish_eq rfl (ofScalar_narrow _)⟩

/-! ## Named constants (R142) -/

theorem namedConst_ok {k : BitVec 8} (h : k.toNat < 4) : namedConst k = .ok (constRom k.toNat) := if_pos h

/-- CONST of an encodable `k` completes with the ROM entry. -/
theorem completes_const (s : State) (rd : RegIdx) (k : BitVec 8) {v : Int} (h : k.toNat < 4)
    (hv : constRom k.toNat = v) : Completes (.const rd k) s (ofScalar v) :=
  completes_of_conclude rfl (hv ▸ namedConst_ok h)

/-- Settles O10: the four ROM entries, and the decoding of CONST's word with its one check. -/
theorem constReadsNamedConstant : Obligations.ConstReadsNamedConstant := by
  intro s rd k
  obtain ⟨hpi, he, hln2, hlog10Of2⟩ := constRom_entries
  have hdecode := decode_encode_const rd k
  refine ⟨?pi, ?e, ?ln2, ?log10Of2, fun h => hdecode.trans (if_pos h), fun h => hdecode.trans (if_neg h.not_gt)⟩
  case pi => rintro rfl; exact completes_const s rd 0 (by decide) hpi
  case e => rintro rfl; exact completes_const s rd 1 (by decide) he
  case ln2 => rintro rfl; exact completes_const s rd 2 (by decide) hln2
  case log10Of2 => rintro rfl; exact completes_const s rd 3 (by decide) hlog10Of2

end Sys2Proof.Machine
end

section
/-! The elementary family: ABS and SIGN, the roundings to a multiple of 1.0 by the fraction mask, MIN and MAX
(42_elementary R150 to R157). -/

namespace Sys2Proof.Machine

/-! ## Rounding by the fraction mask (R152 to R155) -/

theorem fractionMask_getLsbD : ∀ i < 32, (0xFFFFFC00#32 : Word).getLsbD i = decide (10 ≤ i) := by decide

/-- Clearing the ten fraction bits is shifting them out and zeros back in. -/
theorem intPart_eq_shifts (v : Word) : intPart v = v.sshiftRight 10 <<< 10 := by
  refine BitVec.eq_of_getLsbD_eq fun i hi => ?_
  rw [intPart, BitVec.getLsbD_and, fractionMask_getLsbD i hi, BitVec.getLsbD_shiftLeft, BitVec.getLsbD_sshiftRight]
  by_cases hfrac : i < 10
  · simp [hfrac]
  · have hsub : 10 + (i - 10) = i := by omega
    have hin : ¬ 32 ≤ i - 10 := by omega
    simp [hfrac, hi, hsub, hin, not_lt.1 hfrac]

/-- The mask rounds toward minus infinity. -/
theorem intPart_toInt (v : Word) : (intPart v).toInt = 1024 * (v.toInt / 1024) := by
  obtain ⟨hv, hv'⟩ := toInt_range v
  have hasr : (v.sshiftRight 10).toInt = v.toInt / 1024 := by
    rw [← ofScalar_asr, ofScalar_toInt, asr_fracBits, wrap32_of_range (by omega) (by omega)]
  rw [intPart_eq_shifts, ← ofScalar_shiftLeft, ofScalar_toInt, hasr, shiftLeft_fracBits,
    wrap32_of_range (by omega) (by omega)]

theorem toInt_add_eq_wrap32 (v w : Word) : (v + w).toInt = wrap32 (v.toInt + w.toInt) := by
  rw [← ofScalar_add, ofScalar_toInt]

/-- A bias that stays in range is added before the floor. -/
theorem intPart_add_toInt {v w : Word} (hw : 0 ≤ w.toInt) (h : v.toInt + w.toInt < 2147483648) :
    (intPart (v + w)).toInt = 1024 * ((v.toInt + w.toInt) / 1024) := by
  have hv := (toInt_range v).1
  rw [intPart_toInt, toInt_add_eq_wrap32, wrap32_of_range (by omega) h]

/-- A bias of less than 1.0 that wraps lands in the lowest unit of the range (R153, R155). -/
theorem intPart_add_of_wraps {v w : Word} (hw : w.toInt < 1024) (h : 2147483648 ≤ v.toInt + w.toInt) :
    intPart (v + w) = 0x80000000#32 := by
  have hv := (toInt_range v).2
  have hleast : (0x80000000#32 : Word).toInt = -2147483648 := by decide
  apply BitVec.eq_of_toInt_eq
  rw [intPart_toInt, toInt_add_eq_wrap32, wrap32, hleast]
  omega

theorem toInt_ceilBias : (0x3FF#32 : Word).toInt = 1023 := by decide

theorem toInt_roundBias : (512#32 : Word).toInt = 512 := by decide

theorem ceilRaw_toInt {v : Word} (h : v.toInt ≤ 2147482624) : (ceilRaw v).toInt = 1024 * ((v.toInt + 1023) / 1024) :=
  intPart_add_toInt (w := 0x3FF#32) (by decide) (by rw [toInt_ceilBias]; omega)

theorem ceilRaw_of_wraps {v : Word} (h : 2147482624 < v.toInt) : ceilRaw v = 0x80000000#32 :=
  intPart_add_of_wraps (by decide) (by rw [toInt_ceilBias]; omega)

theorem roundRaw_toInt {v : Word} (h : v.toInt < 2147483136) : (roundRaw v).toInt = 1024 * ((v.toInt + 512) / 1024) :=
  intPart_add_toInt (w := 512#32) (by decide) (by rw [toInt_roundBias]; omega)

theorem roundRaw_of_wraps {v : Word} (h : 2147483136 ≤ v.toInt) : roundRaw v = 0x80000000#32 :=
  intPart_add_of_wraps (by decide) (by rw [toInt_roundBias]; omega)

/-- CEIL below zero and FLOOR from zero on round toward zero; CEIL does not wrap there (R154). -/
theorem truncRaw_toInt (v : Word) : (truncRaw v).toInt = 1024 * v.toInt.tdiv 1024 := by
  unfold truncRaw
  split
  case isTrue hneg =>
    have hceil : (intPart (v + 0x3FF#32)).toInt = 1024 * ((v.toInt + 1023) / 1024) := ceilRaw_toInt (by omega)
    have hquotient : v.toInt.tdiv 1024 = -(-v.toInt / 1024) := by
      rw [← Int.tdiv_eq_ediv_of_nonneg (by omega), Int.neg_tdiv, neg_neg]
    rw [hceil, hquotient]
    omega
  case isFalse hpos => rw [intPart_toInt, Int.tdiv_eq_ediv_of_nonneg (not_lt.1 hpos)]

/-- Settles O12: the floor is the mask's, and CEIL's bias either stays in range or wraps. -/
theorem floorAndCeil : Obligations.FloorAndCeil := by
  intro s rd rs1 a
  have hfloor : (floorRaw (s.readReg rs1)).toInt = 1024 * (a / 1024) := intPart_toInt _
  refine ⟨decode_encode (i := .floor rd rs1) rfl, ⟨_, completes_of_finish rfl, by omega⟩,
    decode_encode (i := .ceil rd rs1) rfl, fun h => ⟨_, completes_of_finish rfl, ?_⟩,
    fun h => completes_of_finish_eq rfl (ceilRaw_of_wraps h)⟩
  have hceil : (ceilRaw (s.readReg rs1)).toInt = 1024 * ((a + 1023) / 1024) := ceilRaw_toInt h
  omega

/-- Settles O13: the truncated quotient by 1.0, and ROUND's bias, which either stays in range or wraps. -/
theorem truncAndRound : Obligations.TruncAndRound := by
  intro s rd rs1 a
  have htrunc : truncRaw (s.readReg rs1) = ofScalar (1024 * a.tdiv 1024) := by
    rw [← truncRaw_toInt, ofScalar_self]
  refine ⟨decode_encode (i := .trunc rd rs1) rfl, completes_of_finish_eq rfl htrunc,
    decode_encode (i := .round rd rs1) rfl, fun h => ⟨_, completes_of_finish rfl, ?_⟩,
    fun h => completes_of_finish_eq rfl (roundRaw_of_wraps h)⟩
  have hround : (roundRaw (s.readReg rs1)).toInt = 1024 * ((a + 512) / 1024) := roundRaw_toInt h
  omega

/-! ## Absolute value and sign (R150, R151) -/

theorem slt_zero_iff (v : Word) : v.slt 0#32 ↔ v.toInt < 0 := BitVec.slt_iff_toInt_lt

/-- The wrapped negation of the value is the negation of the pattern. -/
theorem ofScalar_absRaw (v : Word) : ofScalar (absRaw v.toInt) = if v.slt 0#32 then -v else v := by
  simp only [absRaw, slt_zero_iff]
  split
  · rw [ofScalar_wrap32, ofScalar, BitVec.ofInt_neg, BitVec.ofInt_toInt]
  · exact ofScalar_self v

theorem ofScalar_signRaw (v : Word) :
    ofScalar (signRaw v.toInt) = if v.slt 0#32 then 0xFFFFFC00#32 else if v = 0#32 then 0#32 else 0x00000400#32 := by
  have hzero : v = 0#32 ↔ v.toInt = 0 := BitVec.toInt_inj.symm
  simp only [signRaw, slt_zero_iff, hzero]
  obtain hneg | hz | hpos := lt_trichotomy v.toInt 0
  · rw [if_pos hneg, if_pos hneg]; rfl
  · rw [hz]; rfl
  · rw [if_neg hpos.not_gt, if_pos hpos, if_neg hpos.not_gt, if_neg hpos.ne']; rfl

/-- Settles O11: ABS and SIGN case by case on the sign of the raw. -/
theorem absAndSign : Obligations.AbsAndSign := fun _ rd rs1 =>
  ⟨decode_encode (i := .abs rd rs1) rfl, completes_of_finish_eq rfl (ofScalar_absRaw _),
    decode_encode (i := .sign rd rs1) rfl, completes_of_finish_eq rfl (ofScalar_signRaw _)⟩

/-! ## Minimum and maximum (R156, R157) -/

theorem ofScalar_min (v w : Word) : ofScalar (min v.toInt w.toInt) = if v.toInt < w.toInt then v else w := by
  rw [min_def_lt, apply_ite ofScalar, ofScalar_self, ofScalar_self]

theorem ofScalar_max (v w : Word) : ofScalar (max v.toInt w.toInt) = if v.toInt > w.toInt then v else w := by
  rw [max_comm, max_def_lt, apply_ite ofScalar, ofScalar_self, ofScalar_self]

/-- Settles O14: the pattern kept is that of the smaller, or of the larger, value. -/
theorem minAndMax : Obligations.MinAndMax := fun _ rd rs1 rs2 =>
  ⟨decode_encode (i := .min rd rs1 rs2) rfl, completes_of_finish_eq rfl (ofScalar_min _ _).symm,
    decode_encode (i := .max rd rs1 rs2) rfl, completes_of_finish_eq rfl (ofScalar_max _ _).symm⟩

end Sys2Proof.Machine
end

section
/-! The square root family: Newton's iteration reaches the integer part of the root, SQRT is the raw nearest to the exact
root, and its square is near the operand (43_sqrt R170 to R173). -/

namespace Sys2Proof.Machine

/-! ## One evaluation of the Newton iteration (R171) -/

/-- `y` of R171: one evaluation of the iteration. -/
def newtonStep (n x : Nat) : Nat := (x + n / x) / 2

theorem newtonLoop_succ (n cap x : Nat) :
    newtonLoop n (cap + 1) x = if newtonStep n x ≥ x then x else newtonLoop n cap (newtonStep n x) := rfl

/-- No evaluation falls below the integer part of the root: `(2q - x) x ≤ q²`. -/
theorem sqrt_le_newtonStep (n : Nat) {x : Nat} (hx : 0 < x) : n.sqrt ≤ newtonStep n x := by
  have hmean : (2 * n.sqrt - x) * x ≤ n := by
    obtain h | h := le_total (2 * n.sqrt) x
    · simp [Nat.sub_eq_zero_of_le h]
    · obtain ⟨d, hd⟩ := Nat.exists_eq_add_of_le h
      rw [hd, Nat.add_sub_cancel_left]
      nlinarith [sq_nonneg ((x : ℤ) - d), Nat.sqrt_le n]
  have hquotient := (Nat.le_div_iff_mul_le hx).2 hmean
  rw [newtonStep]
  omega

/-- Above the integer part of the root the iteration decreases. -/
theorem newtonStep_lt {n x : Nat} (h : n.sqrt < x) : newtonStep n x < x := by
  have hquotient : n / x < x := Nat.div_lt_of_lt_mul (Nat.sqrt_lt.1 h)
  rw [newtonStep]
  omega

/-- From one above the integer part of the root, one evaluation reaches it. -/
theorem newtonStep_sqrt_succ (n : Nat) : newtonStep n (n.sqrt + 1) = n.sqrt :=
  le_antisymm (Nat.le_of_lt_succ (newtonStep_lt (Nat.lt_succ_self _))) (sqrt_le_newtonStep n (Nat.succ_pos _))

/-! ## The loop from a value not below the root (R172) -/

/-- The integer part of the root is the last decreasing value, whatever is left of the cap. -/
theorem newtonLoop_sqrt {n : Nat} (hn : 1 ≤ n) (cap : Nat) : newtonLoop n cap n.sqrt = n.sqrt := by
  cases cap with
  | zero => rfl
  | succ cap => rw [newtonLoop_succ, if_pos (sqrt_le_newtonStep n (Nat.sqrt_pos.2 hn))]

/-- Above the integer part of the root the loop goes on from the next value. -/
theorem newtonLoop_succ_of_sqrt_lt {n x : Nat} (h : n.sqrt < x) (cap : Nat) :
    newtonLoop n (cap + 1) x = newtonLoop n cap (newtonStep n x) := by
  rw [newtonLoop_succ, if_neg (newtonStep_lt h).not_ge]

/-! ## The speed of the iteration (R172) -/

/-- `x` exceeds the root of `n` by at most the fraction `1/p` of it: `x ≤ (1 + 1/p) √n`. R172's relative error `e` is
at most `1/p`. -/
def RootPrecision (n x p : Nat) : Prop := (p * x) ^ 2 ≤ (p + 1) ^ 2 * n

/-- R172's `e' = e² / (2 (1 + e))` at `e = 1/p`. -/
def nextPrecision (p : Nat) : Nat := 2 * p * (p + 1)

/-- One evaluation from above the root: with `A = p²`, `B = (p + 1)²`, `A x² ≤ B n` and `n ≤ x²`, the product
`(B n - A x²) (B x² - A n)` is not negative, which bounds the square of `x² + n ≥ 2 x y`. -/
theorem rootPrecision_newtonStep {n x p : Nat} (hx : n.sqrt < x) (h : RootPrecision n x p) :
    RootPrecision n (newtonStep n x) (nextPrecision p) := by
  have hn : n < x * x := Nat.sqrt_lt.1 hx
  have hmean : 2 * newtonStep n x * x ≤ x * x + n := by
    have hdouble : 2 * newtonStep n x ≤ x + n / x := Nat.mul_div_le _ 2
    nlinarith [Nat.mul_div_le n x]
  unfold RootPrecision nextPrecision at *
  generalize newtonStep n x = y at *
  have hsquare : (p * (p + 1)) ^ 2 * (x * x + n) ^ 2 ≤ (p ^ 2 + (p + 1) ^ 2) ^ 2 * n * (x * x) := by
    have hlow : p ^ 2 * (x * x) ≤ (p + 1) ^ 2 * n := by linarith only [h]
    have hhigh : p ^ 2 * n ≤ (p + 1) ^ 2 * (x * x) := Nat.mul_le_mul (Nat.pow_le_pow_left p.le_succ 2) hn.le
    zify at hlow hhigh ⊢
    linarith only [mul_nonneg (sub_nonneg.2 hlow) (sub_nonneg.2 hhigh)]
  have hpos : 0 < x * x := by omega
  refine Nat.le_of_mul_le_mul_right ?_ hpos
  calc (2 * p * (p + 1) * y) ^ 2 * (x * x) = (p * (p + 1)) ^ 2 * (2 * y * x) ^ 2 := by ring
    _ ≤ (p * (p + 1)) ^ 2 * (x * x + n) ^ 2 := Nat.mul_le_mul_left _ (Nat.pow_le_pow_left hmean 2)
    _ ≤ (p ^ 2 + (p + 1) ^ 2) ^ 2 * n * (x * x) := hsquare
    _ = (2 * p * (p + 1) + 1) ^ 2 * n * (x * x) := by ring

/-- A precision whose square exceeds `n` leaves `x` at most one above the integer part of the root: `x ≤ p`, so
`(p + 1) (x - 1) ≤ p x`. -/
theorem le_sqrt_succ_of_rootPrecision {n x p : Nat} (h : RootPrecision n x p) (hp : n < p ^ 2) : x ≤ n.sqrt + 1 := by
  have hxp : x < p + 1 := by
    refine lt_of_pow_lt_pow_left₀ 2 (Nat.zero_le _) (Nat.lt_of_mul_lt_mul_left (a := p ^ 2) ?_)
    calc p ^ 2 * x ^ 2 = (p * x) ^ 2 := (mul_pow p x 2).symm
      _ ≤ (p + 1) ^ 2 * n := h
      _ < (p + 1) ^ 2 * p ^ 2 := Nat.mul_lt_mul_of_pos_left hp (by positivity)
      _ = p ^ 2 * (p + 1) ^ 2 := mul_comm _ _
  obtain _ | z := x
  · exact Nat.zero_le _
  have hz : (p + 1) * z ≤ p * (z + 1) := by linarith
  refine Nat.succ_le_succ (Nat.le_sqrt'.2 (Nat.le_of_mul_le_mul_left ?_ (pow_pos p.succ_pos 2)))
  calc (p + 1) ^ 2 * z ^ 2 = ((p + 1) * z) ^ 2 := (mul_pow _ z 2).symm
    _ ≤ (p * (z + 1)) ^ 2 := Nat.pow_le_pow_left hz 2
    _ ≤ (p + 1) ^ 2 * n := h

/-- `k` evaluations that bring the precision above the root's size, and one more, are enough. -/
theorem newtonLoop_eq_sqrt {n : Nat} (hn : 1 ≤ n) (k : Nat) :
    ∀ {cap x p : Nat}, k < cap → n.sqrt ≤ x → RootPrecision n x p → n < (nextPrecision^[k] p) ^ 2 →
      newtonLoop n cap x = n.sqrt := by
  induction k with
  | zero =>
    rintro (_ | cap) x p hcap hx h hp
    · exact absurd hcap (Nat.lt_irrefl 0)
    obtain rfl | rfl : x = n.sqrt ∨ x = n.sqrt + 1 := by
      have := le_sqrt_succ_of_rootPrecision h hp
      omega
    · exact newtonLoop_sqrt hn _
    · rw [newtonLoop_succ_of_sqrt_lt (Nat.lt_succ_self _), newtonStep_sqrt_succ, newtonLoop_sqrt hn]
  | succ k ih =>
    rintro (_ | cap) x p hcap hx h hp
    · exact absurd hcap (Nat.not_lt_zero _)
    obtain rfl | hx := hx.eq_or_lt
    · exact newtonLoop_sqrt hn _
    · rw [newtonLoop_succ_of_sqrt_lt hx]
      exact ih (Nat.lt_of_succ_lt_succ hcap) (sqrt_le_newtonStep n (Nat.zero_lt_of_lt hx))
        (rootPrecision_newtonStep hx h) hp

/-! ## The start (R171, R172) -/

theorem bitlen_of_pos {n : Nat} (hn : 1 ≤ n) : bitlen n = n.log2 + 1 := if_neg (by omega)

/-- The start is not below the root. -/
theorem sqrt_le_newtonStart {n : Nat} (hn : 1 ≤ n) : n.sqrt ≤ newtonStart n := by
  refine (Nat.sqrt_lt'.2 ?_).le
  calc n < 2 ^ (n.log2 + 1) := Nat.lt_log2_self
    _ ≤ 2 ^ ((n.log2 + 2) / 2 * 2) := Nat.pow_le_pow_right two_pos (by omega)
    _ = newtonStart n ^ 2 := by rw [newtonStart, bitlen_of_pos hn, pow_mul]; rfl

/-- The start is at most twice the root, so the relative error starts at 1 or below. -/
theorem rootPrecision_newtonStart {n : Nat} (hn : 1 ≤ n) : RootPrecision n (newtonStart n) 1 := by
  have hlog : 2 ^ n.log2 ≤ n := Nat.log2_self_le (by omega)
  calc (1 * newtonStart n) ^ 2 = 2 ^ ((n.log2 + 2) / 2 * 2) := by
        rw [one_mul, newtonStart, bitlen_of_pos hn, pow_mul]; rfl
    _ ≤ 2 ^ (n.log2 + 2) := Nat.pow_le_pow_right two_pos (by omega)
    _ = (1 + 1) ^ 2 * 2 ^ n.log2 := by ring
    _ ≤ (1 + 1) ^ 2 * n := Nat.mul_le_mul_left _ hlog

/-- Four evaluations take the precision from 1 to 21523360, more than `2^21.5`; a fifth reaches the root. -/
theorem newtonLoop_newtonStart {n cap : Nat} (hn : 1 ≤ n) (hn' : n < 2 ^ 43) (hcap : 5 ≤ cap) :
    newtonLoop n cap (newtonStart n) = n.sqrt :=
  newtonLoop_eq_sqrt hn 4 hcap (sqrt_le_newtonStart hn) (rootPrecision_newtonStart hn)
    (hn'.trans (by decide))

theorem isqrtNewton_eq_sqrt {n : Nat} (hn : 1 ≤ n) (hn' : n < 2 ^ 43) : isqrtNewton n = n.sqrt :=
  newtonLoop_newtonStart hn hn' (by decide)

/-- Settles O16: five evaluations reach the root from the start, so no cap from 6 on changes the result. -/
theorem newtonGivesFloorRootInSix : Obligations.NewtonGivesFloorRootInSix :=
  fun _ hn hn' => ⟨isqrtNewton_eq_sqrt hn hn', fun _ hcap => newtonLoop_newtonStart hn hn' (by omega)⟩

/-! ## SQRT's function (R170) -/

theorem sqrtRaw_of_neg {a : Int} (h : a < 0) : sqrtRaw a = .error .domainSqrt := if_pos h

@[simp] theorem sqrtRaw_zero : sqrtRaw 0 = .ok 0 := rfl

/-- On a positive raw SQRT halves, rounded up, the integer part of the root of `4096 a`. -/
theorem sqrtRaw_of_pos {a : Int} (h : 0 < a) (h' : a < 2147483648) :
    sqrtRaw a = .ok ((((4096 * a).toNat.sqrt : Int) + 1) / 2) := by
  have hscale : shiftLeft a (Config.fracBits + 2) = 4096 * a := (shiftLeft_eq a 12).trans (mul_comm _ _)
  rw [sqrtRaw, if_neg h.not_gt, if_neg h.ne', hscale, isqrtNewton_eq_sqrt (by omega) (by omega), asr_eq]
  rfl

/-- Half, rounded up, of the integer part of the root of `4096 a` is the raw nearest to the root of `1024 a`. -/
theorem nearestRoot_half_sqrt {a : Int} (h : 0 ≤ a) : NearestRoot a ((((4096 * a).toNat.sqrt : Int) + 1) / 2) := by
  have hscale : ((4096 * a).toNat : Int) = 4096 * a := by omega
  have hlow := Nat.sqrt_le (4096 * a).toNat
  have hhigh := Nat.lt_succ_sqrt (4096 * a).toNat
  zify at hlow hhigh
  rw [hscale] at hlow hhigh
  generalize (4096 * a).toNat.sqrt = q at hlow hhigh ⊢
  obtain ⟨hle, hge⟩ : (q : Int) ≤ 2 * (((q : Int) + 1) / 2) ∧ 2 * (((q : Int) + 1) / 2) - 1 ≤ q := by omega
  generalize ((q : Int) + 1) / 2 = r at hle hge ⊢
  refine ⟨by omega, by nlinarith, ?_⟩
  obtain hr | hr : r = 0 ∨ 1 ≤ r := by omega
  · exact .inl hr
  · exact .inr (by nlinarith)

theorem nearestRoot_zero : NearestRoot 0 0 := ⟨le_rfl, by decide, .inl rfl⟩

/-- SQRT of a raw that is not negative is the raw nearest to its root. -/
theorem sqrtRaw_nearestRoot {a : Int} (h : 0 ≤ a) (h' : a < 2147483648) :
    ∃ r, sqrtRaw a = .ok r ∧ NearestRoot a r := by
  obtain rfl | hpos := h.eq_or_lt
  · exact ⟨0, sqrtRaw_zero, nearestRoot_zero⟩
  · exact ⟨_, sqrtRaw_of_pos hpos h', nearestRoot_half_sqrt h⟩

/-! ## The nearest root: its range and its square (R170, R173) -/

theorem nearestRoot_nonneg {a r : Int} (h : NearestRoot a r) : 0 ≤ r := h.1

theorem nearestRoot_ge {a r : Int} (h : NearestRoot a r) (ha : 0 < a) : 32 ≤ r := by
  obtain ⟨hr, hhigh, -⟩ := h
  nlinarith

theorem nearestRoot_le {a r : Int} (h : NearestRoot a r) (ha : a < 2147483648) : r ≤ 1482910 := by
  obtain ⟨hr, -, rfl | hlow⟩ := h
  · decide
  · nlinarith

/-- The square of the nearest root is within the root of `1024 a`. -/
theorem nearestRoot_sq {a r : Int} (h : NearestRoot a r) (ha : 0 ≤ a) :
    r * r - r ≤ 1024 * a ∧ 1024 * a ≤ r * r + r := by
  obtain ⟨hr, hhigh, hlow⟩ := h
  have hsquare : (2 * r + 1) * (2 * r + 1) = 4 * (r * r + r) + 1 := by ring
  refine ⟨?_, by omega⟩
  obtain rfl | hlow := hlow
  · omega
  · have hsquare' : (2 * r - 1) * (2 * r - 1) = 4 * (r * r - r) + 1 := by ring
    omega

/-- Settles O15: the sign check, the zero, and the nearest root, whose range is read off its bounds. -/
theorem sqrtIsNearestRoot : Obligations.SqrtIsNearestRoot := by
  intro s rd rs1 a
  refine ⟨decode_encode (i := .sqrt rd rs1) rfl, fun h => faults_of_conclude rfl (sqrtRaw_of_neg h),
    fun h => completes_of_conclude rfl ((congrArg sqrtRaw h).trans sqrtRaw_zero), fun h => ?_⟩
  have hrange : a < 2147483648 := (toInt_range _).2
  obtain ⟨r, hr, hnear⟩ := sqrtRaw_nearestRoot h.le hrange
  exact ⟨r, completes_of_conclude rfl hr, hnear, nearestRoot_ge hnear h, nearestRoot_le hnear hrange⟩

/-- A result that is not written to x0 is read back, wrapped. -/
theorem toInt_readReg_of_completed {s t : State} {rd : RegIdx} {v : Int} (h : Completed s t rd (ofScalar v))
    (hrd : rd ≠ 0#4) : (t.readReg rd).toInt = wrap32 v := by
  rw [h.regs, if_pos ⟨rfl, hrd⟩, ofScalar_toInt]

/-- The rounded square of the nearest root does not wrap: it is at most `1482910^2 / 1024`. -/
theorem roundedProduct_nearestRoot {a r : Int} (h : NearestRoot a r) (ha : 0 ≤ a) (ha' : a < 2147483648) :
    wrap32 (roundedProduct r r) = roundedProduct r r ∧ (roundedProduct r r - a).natAbs ≤ 1449 := by
  have hr := nearestRoot_nonneg h
  have hr' := nearestRoot_le h ha'
  obtain ⟨hlow, hhigh⟩ := nearestRoot_sq h ha
  have hsquare : 0 ≤ r * r := mul_self_nonneg r
  have hsquare' : r * r ≤ 1482910 * 1482910 := mul_self_le_mul_self hr hr'
  unfold roundedProduct
  exact ⟨wrap32_of_range (by omega) (by omega), by omega⟩

/-- Settles O17: SQRT leaves the nearest root in `rd`, and MUL the rounded square of it in `re`. -/
theorem sqrtSquaredWithinBound : Obligations.SqrtSquaredWithinBound := by
  intro s rd re rs1 hrd hre h
  have hrange := (toInt_range (s.readReg rs1)).2
  obtain ⟨r, hr, hnear⟩ := sqrtRaw_nearestRoot h hrange
  obtain ⟨t, ht, hroot⟩ := completes_of_conclude (i := .sqrt rd rs1) (s := s) rfl hr
  obtain ⟨u, hu, hproduct⟩ := completes_mul t re rd rd
  have hr0 := nearestRoot_nonneg hnear
  have hr' := nearestRoot_le hnear hrange
  have hroot' : t.scalar rd = r :=
    (toInt_readReg_of_completed hroot hrd).trans (wrap32_of_range (by omega) (by omega))
  obtain ⟨hwrap, hbound⟩ := roundedProduct_nearestRoot hnear h hrange
  refine ⟨t, u, ht, hu, ?_⟩
  rwa [toInt_readReg_of_completed (rd := re) hproduct hre, hroot', hwrap]

end Sys2Proof.Machine
end

section
/-! The trigonometric family: the symmetries of the table lookup, the interpolated cosine over the circle, the bands
where TAN faults, and the sum of the squares (44_trig R180 to R185). -/

namespace Sys2Proof.Machine

/-! ## The table lookup over the circle (R182) -/

theorem lookup_periodic : Function.Periodic lookup 1440 := fun k => by simp [lookup]

/-- Inside the circle the reduction does nothing. -/
theorem lookup_of_lt {k : Nat} (h : k < 1440) :
    lookup k = if k ≤ 360 then qsRom k else if k ≤ 720 then -qsRom (720 - k)
      else if k ≤ 1080 then -qsRom (k - 720) else qsRom (1440 - k) :=
  congrArg lookupReduced (Nat.mod_eq_of_lt h)

/-- 0 to 90 degrees. -/
theorem lookup_of_le_360 {k : Nat} (h : k ≤ 360) : lookup k = qsRom k := by
  rw [lookup_of_lt (by omega), if_pos h]

/-- 90 to 180 degrees; at 90 both quarters read the last entry, 0. -/
theorem lookup_of_le_720 {k : Nat} (h : 360 ≤ k) (h' : k ≤ 720) : lookup k = -qsRom (720 - k) := by
  obtain ⟨-, hlast⟩ := qsRom_ends
  obtain rfl | h := h.eq_or_lt
  · simp [lookup_of_le_360, hlast]
  · rw [lookup_of_lt (by omega), if_neg h.not_ge, if_pos h']

/-- 180 to 270 degrees; at 180 both quarters read the first entry, negated. -/
theorem lookup_of_le_1080 {k : Nat} (h : 720 ≤ k) (h' : k ≤ 1080) : lookup k = -qsRom (k - 720) := by
  obtain rfl | h := h.eq_or_lt
  · simp [lookup_of_le_720]
  · rw [lookup_of_lt (by omega), if_neg (by omega), if_neg h.not_ge, if_pos h']

/-- 270 to 360 degrees; at 270 both quarters read the last entry, at 360 the circle closes on the first. -/
theorem lookup_of_le_1440 {k : Nat} (h : 1080 ≤ k) (h' : k ≤ 1440) : lookup k = qsRom (1440 - k) := by
  obtain ⟨-, hlast⟩ := qsRom_ends
  obtain rfl | h := h.eq_or_lt
  · simp [lookup_of_le_1080, hlast]
  obtain rfl | h' := h'.eq_or_lt
  · simpa [lookup_of_le_360] using lookup_periodic 0
  · rw [lookup_of_lt (by omega), if_neg (by omega), if_neg (by omega),
      if_neg h.not_ge]

/-- The cosine of the supplement is the negated cosine. -/
theorem lookup_supplement {k : Nat} (h : k ≤ 720) : lookup (720 - k) = -lookup k := by
  obtain hk | hk := le_total k 360
  · rw [lookup_of_le_720 (k := 720 - k) (by omega) (by omega), lookup_of_le_360 hk, Nat.sub_sub_self h]
  · rw [lookup_of_le_360 (k := 720 - k) (by omega), lookup_of_le_720 hk h, neg_neg]

/-- The table is symmetric about 180 degrees, hence about 360. -/
theorem lookup_mirror {k : Nat} (h : k ≤ 1440) : lookup (1440 - k) = lookup k := by
  have hquarters : k ≤ 360 ∨ 360 ≤ k ∧ k ≤ 720 ∨ 720 ≤ k ∧ k ≤ 1080 ∨ 1080 ≤ k := by omega
  obtain hk | ⟨hk, hk'⟩ | ⟨hk, hk'⟩ | hk := hquarters
  · rw [lookup_of_le_1440 (k := 1440 - k) (by omega) (by omega), lookup_of_le_360 hk, Nat.sub_sub_self h]
  · rw [lookup_of_le_1080 (k := 1440 - k) (by omega) (by omega), lookup_of_le_720 hk hk', Nat.sub_right_comm]
  · rw [lookup_of_le_720 (k := 1440 - k) (by omega) (by omega), lookup_of_le_1080 hk hk']
    rw [show 720 - (1440 - k) = k - 720 by omega]
  · rw [lookup_of_le_360 (k := 1440 - k) (by omega), lookup_of_le_1440 hk h]

/-- Settles O18: the period by the reduction, the quarter and the two mirrors case by case. -/
theorem lookupMirrorsQuarterTable : Obligations.LookupMirrorsQuarterTable := fun k =>
  ⟨lookup_periodic k, lookup_of_le_360, lookup_supplement, lookup_mirror⟩

/-! ## The interpolated cosine (R181) -/

/-- The two neighbouring entries weighted by the remainder: 256 times the exact interpolant. -/
def weighted (v1 v2 : Int) (t : Nat) : Int := v1 * (256 - t) + v2 * t

@[simp] theorem weighted_zero (v1 v2 : Int) : weighted v1 v2 0 = v1 * 256 := by simp [weighted]

@[simp] theorem weighted_full (v1 v2 : Int) : weighted v1 v2 256 = v2 * 256 := by simp [weighted]

/-- From the other end of the step the entries and their weights are exchanged. -/
theorem weighted_swap (v1 v2 : Int) {t : Nat} (ht : t ≤ 256) : weighted v2 v1 (256 - t) = weighted v1 v2 t := by
  unfold weighted
  push_cast [ht]
  ring

/-- The weighted sum keeps the bounds of its entries. -/
theorem weighted_range {lo hi v1 v2 : Int} {t : Nat} (h1 : lo ≤ v1 ∧ v1 ≤ hi) (h2 : lo ≤ v2 ∧ v2 ≤ hi)
    (ht : t ≤ 256) : 256 * lo ≤ weighted v1 v2 t ∧ weighted v1 v2 t ≤ 256 * hi := by
  have ht0 : (0 : Int) ≤ t := Int.natCast_nonneg t
  have ht1 : (0 : Int) ≤ 256 - t := by omega
  obtain ⟨hlow1, hhigh1⟩ := h1
  obtain ⟨hlow2, hhigh2⟩ := h2
  have hlow := add_le_add (mul_le_mul_of_nonneg_right hlow1 ht1) (mul_le_mul_of_nonneg_right hlow2 ht0)
  have hhigh := add_le_add (mul_le_mul_of_nonneg_right hhigh1 ht1) (mul_le_mul_of_nonneg_right hhigh2 ht0)
  unfold weighted
  exact ⟨by linarith only [hlow], by linarith only [hhigh]⟩

/-- On a grid point the interpolation returns the entry too, so `t = 0` needs no case of its own. -/
theorem interpolate_eq (v1 v2 : Int) (t : Nat) : interpolate v1 v2 t = (weighted v1 v2 t + 128) / 256 := by
  unfold interpolate
  split
  case isTrue h =>
    rw [h, weighted_zero]
    omega
  case isFalse => exact asr_eq _ 8

theorem cosMag_eq (m : Nat) :
    cosMag m = (weighted (lookup (m / 256)) (lookup (m / 256 + 1)) (m % 256) + 128) / 256 := interpolate_eq _ _ _

/-- The cosine inside table step `i`, both of whose ends belong to it. -/
theorem cosMag_step (i : Nat) {t : Nat} (ht : t ≤ 256) :
    cosMag (256 * i + t) = (weighted (lookup i) (lookup (i + 1)) t + 128) / 256 := by
  obtain rfl | ht := ht.eq_or_lt
  · rw [cosMag_eq, show (256 * i + 256) / 256 = i + 1 by omega, show (256 * i + 256) % 256 = 0 by omega,
      weighted_zero, weighted_full]
  · rw [cosMag_eq, show (256 * i + t) / 256 = i by omega, show (256 * i + t) % 256 = t by omega]

/-- On the table grid the cosine is the entry. -/
theorem cosMag_grid (i : Nat) : cosMag (256 * i) = lookup i := by
  rw [← Nat.add_zero (256 * i), cosMag_step i (Nat.zero_le _), weighted_zero]
  omega

theorem cosMag_range (m : Nat) : -1024 ≤ cosMag m ∧ cosMag m ≤ 1024 := by
  have h := weighted_range (lookup_range (m / 256)) (lookup_range (m / 256 + 1)) (Nat.mod_lt m (by decide : 256 > 0)).le
  rw [cosMag_eq]
  omega

theorem cosMag_periodic : Function.Periodic cosMag 368640 := fun m => by
  have hstep : (m + 368640) / 256 = m / 256 + 1440 := by omega
  have hrest : (m + 368640) % 256 = m % 256 := by omega
  rw [cosMag_eq, cosMag_eq, hstep, hrest, Nat.add_right_comm, lookup_periodic, lookup_periodic]

/-- Every angle of `n` table steps lies in one of them. -/
theorem exists_table_step {m n : Nat} (hn : 0 < n) (h : m ≤ 256 * n) : ∃ i < n, ∃ t ≤ 256, m = 256 * i + t := by
  obtain rfl | h := h.eq_or_lt
  · exact ⟨n - 1, by omega, 256, le_rfl, by omega⟩
  · exact ⟨m / 256, by omega, m % 256, by omega, by omega⟩

/-- The interpolation is symmetric about 180 degrees: the mirrored step swaps the entries and their weights. -/
theorem cosMag_mirror {m : Nat} (h : m ≤ 368640) : cosMag (368640 - m) = cosMag m := by
  obtain ⟨i, hi, t, ht, rfl⟩ := exists_table_step (n := 1440) (by decide) h
  have hstep : 368640 - (256 * i + t) = 256 * (1440 - (i + 1)) + (256 - t) := by omega
  have hnext : 1440 - (i + 1) + 1 = 1440 - i := by omega
  rw [hstep, cosMag_step _ (Nat.sub_le _ _), cosMag_step i ht, hnext, lookup_mirror hi, lookup_mirror hi.le,
    weighted_swap _ _ ht]

/-- Settles O19: the meanings' results are the interpolation formula at their magnitudes. -/
theorem cosSinInterpolateTable : Obligations.CosSinInterpolateTable := by
  intro s rd rs1 a at_
  have hat (m : Nat) : cosMag m = at_ m := cosMag_eq m
  have hrange := cosMag_range a.natAbs
  rw [← hat, ← hat]
  exact ⟨decode_encode (i := .cos rd rs1) rfl, completes_of_finish rfl, by omega,
    decode_encode (i := .sin rd rs1) rfl, completes_of_finish rfl⟩

/-! ## The cosine of an integer angle (R180, R183) -/

theorem cosRaw_neg (a : Int) : cosRaw (-a) = cosRaw a := by rw [cosRaw, cosRaw, Int.natAbs_neg]

theorem cosRaw_natCast (m : Nat) : cosRaw m = cosMag m := rfl

theorem sinRaw_eq_cosRaw (a : Int) : sinRaw a = cosRaw (a - 92160) := rfl

theorem cosRaw_range (a : Int) : -1024 ≤ cosRaw a ∧ cosRaw a ≤ 1024 := cosMag_range _

/-- A full turn moves the magnitude up, across 0, or down: by the period, the mirror, or the period. -/
theorem cosRaw_periodic : Function.Periodic cosRaw 368640 := fun a => by
  have hturn : 0 ≤ a ∨ -368640 ≤ a ∧ a < 0 ∨ a < -368640 := by omega
  unfold cosRaw
  obtain h | ⟨h, h'⟩ | h := hturn
  · rw [show (a + 368640).natAbs = a.natAbs + 368640 by omega, cosMag_periodic]
  · rw [show (a + 368640).natAbs = 368640 - a.natAbs by omega, cosMag_mirror (by omega)]
  · rw [show a.natAbs = (a + 368640).natAbs + 368640 by omega, cosMag_periodic]

/-- Settles O20: the evenness, period and range of the cosine, and the sine as the model defines it. -/
theorem cosineEvenPeriodicBounded : Obligations.CosineEvenPeriodicBounded := fun a =>
  ⟨cosRaw_neg a, cosRaw_periodic a, (cosRaw_range a).1, (cosRaw_range a).2, sinRaw_eq_cosRaw a⟩

/-! ## The bands of zero cosine and the tangent (R184) -/

theorem qsRom_antitone {j k : Nat} (h : j ≤ k) (hk : k ≤ 360) : qsRom k ≤ qsRom j := by
  induction k, h using Nat.le_induction with
  | base => exact le_rfl
  | succ k _ ih => exact (qsRom_succ_le hk).trans (ih (by omega))

/-- The entries about the right angle are 4, 0 and -4. -/
theorem lookup_right_angle : lookup 359 = 4 ∧ lookup 360 = 0 ∧ lookup 361 = -4 := by decide +kernel

/-- Every entry before the right angle is at least the last one before it. -/
theorem lookup_ge_four {k : Nat} (h : k < 360) : 4 ≤ lookup k := by
  obtain ⟨h359, -⟩ := lookup_right_angle
  rw [lookup_of_le_360 (k := 359) (by decide)] at h359
  rw [lookup_of_le_360 h.le, ← h359]
  exact qsRom_antitone (by omega) (by decide)

theorem lookup_le_neg_four {k : Nat} (h : 360 < k) (h' : k ≤ 720) : lookup k ≤ -4 := by
  have hsupplement := lookup_ge_four (k := 720 - k) (by omega)
  rw [lookup_supplement h'] at hsupplement
  omega

/-- Up to 180 degrees the cosine is 0 only in the two table steps about the right angle, and within 32 raws of it. -/
theorem cosMag_eq_zero_iff_of_le_half {m : Nat} (h : m ≤ 184320) : cosMag m = 0 ↔ 92129 ≤ m ∧ m ≤ 92192 := by
  obtain ⟨i, hi, t, ht, rfl⟩ := exists_table_step (n := 720) (by decide) h
  obtain ⟨h359, h360, h361⟩ := lookup_right_angle
  have hstep : i < 359 ∨ i = 359 ∨ i = 360 ∨ 360 < i := by omega
  rw [cosMag_step i ht]
  obtain hlow | rfl | rfl | hhigh := hstep
  · have hpos := weighted_range (hi := 1024) ⟨lookup_ge_four (k := i) (by omega), (lookup_range _).2⟩
      ⟨lookup_ge_four (k := i + 1) (by omega), (lookup_range _).2⟩ ht
    omega
  · simp only [weighted, h359, h360]
    omega
  · simp only [weighted, h360, h361]
    omega
  · have hneg := weighted_range (lo := -1024) ⟨(lookup_range _).1, lookup_le_neg_four (k := i) hhigh (by omega)⟩
      ⟨(lookup_range _).1, lookup_le_neg_four (k := i + 1) (by omega) (by omega)⟩ ht
    omega

/-- Over the circle the mirror adds the second band. -/
theorem cosMag_eq_zero_iff {m : Nat} (h : m ≤ 368640) :
    cosMag m = 0 ↔ (92129 ≤ m ∧ m ≤ 92192) ∨ (276448 ≤ m ∧ m ≤ 276511) := by
  obtain hm | hm := le_total m 184320
  · rw [cosMag_eq_zero_iff_of_le_half hm]
    omega
  · rw [← cosMag_mirror h, cosMag_eq_zero_iff_of_le_half (by omega)]
    omega

theorem cosRaw_eq_zero_iff (a : Int) :
    cosRaw a = 0 ↔ (92129 ≤ a.natAbs % 368640 ∧ a.natAbs % 368640 ≤ 92192) ∨
      (276448 ≤ a.natAbs % 368640 ∧ a.natAbs % 368640 ≤ 276511) := by
  rw [cosRaw, ← cosMag_periodic.map_mod_nat, cosMag_eq_zero_iff (Nat.mod_lt _ (by decide)).le]

/-- A quotient is at most 1024 times its dividend in magnitude, for its divisor is at least one raw. -/
theorem roundedQuotient_natAbs_le (a : Int) {b : Int} (hb : b ≠ 0) :
    (roundedQuotient a b).natAbs ≤ 1024 * a.natAbs := by
  have hpos : 0 < (b.natAbs : Int) := by omega
  unfold roundedQuotient
  split
  case isTrue =>
    have hlow : 0 ≤ (2048 * (a.natAbs : Int) + b.natAbs) / (2 * b.natAbs) := Int.ediv_nonneg (by omega) (by omega)
    have hscale : (a.natAbs : Int) ≤ a.natAbs * b.natAbs := le_mul_of_one_le_right (by omega) (by omega)
    have hhigh : (2048 * (a.natAbs : Int) + b.natAbs) / (2 * b.natAbs) < 1024 * a.natAbs + 1 :=
      Int.ediv_lt_of_lt_mul (by omega) (by linarith)
    omega
  case isFalse =>
    rw [Int.natAbs_tdiv, Int.natAbs_mul]
    exact Nat.div_le_self _ _

/-- Settles O21: the bands are the zeros of the cosine, and TAN is `fxdiv` of the sine by it. -/
theorem tanFaultsWhereCosineIsZero : Obligations.TanFaultsWhereCosineIsZero := by
  intro s rd rs1 a m band
  have hband : cosRaw a = 0 ↔ band := cosRaw_eq_zero_iff a
  refine ⟨decode_encode (i := .tan rd rs1) rfl, hband, fun h => faults_of_fxdiv rfl (hband.2 h), fun h => ?_⟩
  have hcos : cosRaw a ≠ 0 := mt hband.1 h
  have hsin : -1024 ≤ sinRaw a ∧ sinRaw a ≤ 1024 := cosMag_range _
  have hquotient := roundedQuotient_natAbs_le (sinRaw a) hcos
  exact ⟨completes_of_fxdiv rfl hcos, by omega⟩

/-! ## The sum of the squares (R185) -/

/-- Half a circle on, the entry is negated. -/
theorem lookup_add_720 (k : Nat) : lookup (k + 720) = -lookup k := by
  have hhalf {r : Nat} (h : r ≤ 720) : lookup (r + 720) = -lookup r := by
    rw [← lookup_supplement h, ← lookup_mirror (by omega : 720 - r ≤ 1440)]
    congr 1
    omega
  rw [← lookup_periodic.map_mod_nat k, ← lookup_periodic.map_mod_nat (k + 720), ← Nat.mod_add_mod]
  have hr := Nat.mod_lt k (by decide : 1440 > 0)
  obtain h | h := le_total (k % 1440) 720
  · rw [lookup_periodic.map_mod_nat, hhalf h]
  · rw [show (k % 1440 + 720) % 1440 = k % 1440 - 720 by omega, ← neg_neg (lookup (_ - 720)), ← hhalf (by omega),
      Nat.sub_add_cancel h]

/-- The inner product of the table's points (entry, entry 90 degrees on) at the indices `k` and `k + d`. -/
def tableDot (d k : Nat) : Int := lookup k * lookup (k + d) + lookup (k + 360) * lookup (k + d + 360)

/-- The sum of the rounded squares at the index `k`. -/
def tableSquares (k : Nat) : Int :=
  roundedProduct (lookup k) (lookup k) + roundedProduct (lookup (k + 360)) (lookup (k + 360))

/-- A quarter turn of both points keeps the product. -/
theorem tableDot_periodic (d : Nat) : Function.Periodic (tableDot d) 360 := fun k => by
  have hturn := lookup_add_720 k
  have hturn' := lookup_add_720 (k + d)
  rw [tableDot, tableDot, Nat.add_right_comm k 360 d, Nat.add_assoc k 360, Nat.add_assoc (k + d) 360, hturn, hturn',
    neg_mul_neg, add_comm]

theorem tableSquares_periodic : Function.Periodic tableSquares 360 := fun k => by
  rw [tableSquares, tableSquares, Nat.add_assoc k, lookup_add_720, roundedProduct, roundedProduct, roundedProduct,
    neg_mul_neg, add_comm]

/-- The points of the quarter table: the entry at each index and the one at the complement. -/
def quarterPoints : List (Int × Int) := qsTable.zip qsTable.reverse

theorem quarterPoints_length : quarterPoints.length = 361 := by decide +kernel

theorem quarterPoints_getElem {k : Nat} (h : k < quarterPoints.length) :
    quarterPoints[k] = (qsRom k, qsRom (360 - k)) := by
  obtain ⟨hlength, -⟩ := rom_sizes
  rw [quarterPoints_length] at h
  simp only [quarterPoints, List.getElem_zip, List.getElem_reverse, hlength, qsRom]
  rw [List.getD_eq_getElem _ _ (by omega), List.getD_eq_getElem _ _ (by omega)]

/-- Each point of the quarter is near the unit circle, and so is its product with the next: read off the table. -/
theorem quarterPoints_isChain_near : quarterPoints.IsChain fun p q =>
    (p.1 * p.1 + p.2 * p.2 - 1048576).natAbs ≤ 1300 ∧ (p.1 * q.1 + p.2 * q.2 - 1048576).natAbs ≤ 1300 := by
  decide +kernel

theorem quarterPoints_squares_near :
    ∀ p ∈ quarterPoints, (roundedProduct p.1 p.1 + roundedProduct p.2 p.2 - 1024).natAbs ≤ 1 := by decide +kernel

/-- 90 degrees on from the first quarter the entry is the complement's, negated. -/
theorem lookup_add_360 {k : Nat} (h : k ≤ 360) : lookup (k + 360) = -qsRom (360 - k) := by
  rw [lookup_of_le_720 (by omega) (by omega), Nat.sub_add_eq, Nat.sub_right_comm]

theorem tableDot_quarter {k : Nat} (h : k < 360) :
    (tableDot 0 k - 1048576).natAbs ≤ 1300 ∧ (tableDot 1 k - 1048576).natAbs ≤ 1300 := by
  have hnear := quarterPoints_isChain_near.getElem k (by rw [quarterPoints_length]; omega)
  rw [quarterPoints_getElem, quarterPoints_getElem] at hnear
  rw [tableDot, tableDot, Nat.add_zero, lookup_of_le_360 h.le, lookup_of_le_360 (k := k + 1) h, lookup_add_360 h.le,
    lookup_add_360 (k := k + 1) h, neg_mul_neg, neg_mul_neg]
  exact hnear

theorem tableSquares_quarter {k : Nat} (h : k ≤ 360) : (tableSquares k - 1024).natAbs ≤ 1 := by
  have hk : k < quarterPoints.length := by rw [quarterPoints_length]; omega
  have hnear := quarterPoints_squares_near _ (List.getElem_mem hk)
  rw [quarterPoints_getElem] at hnear
  rw [tableSquares, lookup_of_le_360 h, lookup_add_360 h, roundedProduct, roundedProduct, neg_mul_neg]
  exact hnear

theorem tableDot_near (k : Nat) :
    (tableDot 0 k - 1048576).natAbs ≤ 1300 ∧ (tableDot 1 k - 1048576).natAbs ≤ 1300 := by
  rw [← (tableDot_periodic 0).map_mod_nat, ← (tableDot_periodic 1).map_mod_nat]
  exact tableDot_quarter (Nat.mod_lt _ (by decide))

theorem tableSquares_near (k : Nat) : (tableSquares k - 1024).natAbs ≤ 1 := by
  rw [← tableSquares_periodic.map_mod_nat]
  exact tableSquares_quarter (Nat.mod_lt _ (by decide)).le

/-- The exact interpolants are as near the unit circle as the table: the squared length of a point weighted between two
is their inner products, weighted twice. -/
theorem weighted_squares_near (k : Nat) {t : Nat} (ht : t ≤ 256) :
    (weighted (lookup k) (lookup (k + 1)) t ^ 2 + weighted (lookup (k + 360)) (lookup (k + 360 + 1)) t ^ 2
      - 65536 * 1048576).natAbs ≤ 65536 * 1300 := by
  have hexpand : weighted (lookup k) (lookup (k + 1)) t ^ 2 + weighted (lookup (k + 360)) (lookup (k + 360 + 1)) t ^ 2 =
      weighted (weighted (tableDot 0 k) (tableDot 1 k) t) (weighted (tableDot 1 k) (tableDot 0 (k + 1)) t) t := by
    rw [Nat.add_right_comm k 360 1]
    simp only [weighted, tableDot, Nat.add_zero]
    ring
  obtain ⟨hself, hcross⟩ := tableDot_near k
  obtain ⟨hnext, -⟩ := tableDot_near (k + 1)
  have hfirst := weighted_range (lo := 1047276) (hi := 1049876) (v1 := tableDot 0 k) (v2 := tableDot 1 k)
    (by omega) (by omega) ht
  have hsecond := weighted_range (lo := 1047276) (hi := 1049876) (v1 := tableDot 1 k) (v2 := tableDot 0 (k + 1))
    (by omega) (by omega) ht
  have hboth := weighted_range hfirst hsecond ht
  rw [hexpand]
  omega

/-- Rounding a 256th of `n` moves its square by little: the cross term is bounded by the squares of its factors. -/
theorem rounded_square_near (n : Int) :
    1024 * (65536 * ((n + 128) / 256) ^ 2 - n ^ 2) ≤ n ^ 2 + 17196646400 ∧
      1024 * (n ^ 2 - 65536 * ((n + 128) / 256) ^ 2) ≤ n ^ 2 + 17196646400 := by
  obtain ⟨e, he⟩ : ∃ e, 256 * ((n + 128) / 256) = n + e := ⟨_, (add_sub_cancel n _).symm⟩
  have herror : e ^ 2 ≤ 128 ^ 2 := sq_le_sq' (by omega) (by omega)
  have hsquare : 65536 * ((n + 128) / 256) ^ 2 = (n + e) ^ 2 := by rw [← he]; ring
  rw [hsquare]
  have hplus := sq_nonneg (n + 1024 * e)
  have hminus := sq_nonneg (n - 1024 * e)
  constructor <;> linarith only [herror, hplus, hminus, sq_nonneg e]

/-- A cosine and the one 90 degrees on have squares that sum near the square of 1.0. -/
theorem cosMag_squares_near (m : Nat) :
    (cosMag m ^ 2 + cosMag (m + 92160) ^ 2 - 1048576).natAbs < 3072 := by
  have hstep : (m + 92160) / 256 = m / 256 + 360 := by omega
  have hrest : (m + 92160) % 256 = m % 256 := by omega
  have hnear := weighted_squares_near (m / 256) (Nat.mod_lt m (by decide : 256 > 0)).le
  have hsin := rounded_square_near (weighted (lookup (m / 256)) (lookup (m / 256 + 1)) (m % 256))
  have hcos := rounded_square_near (weighted (lookup (m / 256 + 360)) (lookup (m / 256 + 360 + 1)) (m % 256))
  rw [cosMag_eq, cosMag_eq, hstep, hrest]
  omega

/-- A product of two results of the cosine does not wrap. -/
theorem fxmul_cosMag_self (m : Nat) : fxmul (cosMag m) (cosMag m) = roundedProduct (cosMag m) (cosMag m) := by
  obtain ⟨hlow, hhigh⟩ := cosMag_range m
  have hsquare : 0 ≤ cosMag m ^ 2 := sq_nonneg _
  have hsquare' : cosMag m ^ 2 ≤ 1024 ^ 2 := sq_le_sq' hlow hhigh
  rw [fxmul_eq, roundedProduct, ← sq, wrap32_of_range (by omega) (by omega)]

/-- Sine and cosine of any angle are the cosine at a magnitude and at the one 90 degrees on, a grid point for a grid
point. -/
theorem exists_magnitude (d : Int) :
    ∃ m : Nat, sinRaw d = cosMag m ∧ cosRaw d = cosMag (m + 92160) ∧ (d % 256 = 0 → m % 256 = 0) := by
  obtain ⟨q, hq⟩ : ∃ q : Int, q = (d - 92160) / 368640 := ⟨_, rfl⟩
  refine ⟨(d - 92160 - q * 368640).toNat, ?_, ?_, by omega⟩
  · rw [sinRaw_eq_cosRaw, ← cosRaw_natCast, Int.toNat_of_nonneg (by omega)]
    exact (cosRaw_periodic.sub_int_mul_eq q).symm
  · rw [← cosRaw_natCast, Int.natCast_add, Int.toNat_of_nonneg (by omega), ← cosRaw_periodic.sub_int_mul_eq q]
    congr 1
    push_cast
    ring

/-- Rounding the two squares moves their sum by at most one raw more. -/
theorem roundedSquares_near (m : Nat) :
    (roundedProduct (cosMag m) (cosMag m) + roundedProduct (cosMag (m + 92160)) (cosMag (m + 92160)) - 1024).natAbs
      ≤ 3 := by
  have hnear := cosMag_squares_near m
  simp only [roundedProduct, ← sq]
  omega

/-- On the table grid they are the rounded squares of the entries. -/
theorem roundedSquares_near_grid {m : Nat} (h : m % 256 = 0) :
    (roundedProduct (cosMag m) (cosMag m) + roundedProduct (cosMag (m + 92160)) (cosMag (m + 92160)) - 1024).natAbs
      ≤ 1 := by
  obtain ⟨k, rfl⟩ := Nat.dvd_of_mod_eq_zero h
  have hquarter : 256 * k + 92160 = 256 * (k + 360) := by omega
  rw [hquarter, cosMag_grid, cosMag_grid]
  exact tableSquares_near k

/-- Settles O22: sine and cosine are the cosine at a magnitude and at the one 90 degrees on. -/
theorem squaresSumNearOne : Obligations.SquaresSumNearOne := by
  intro d
  obtain ⟨m, hsin, hcos, hgrid⟩ := exists_magnitude d
  rw [hsin, hcos, fxmul_cosMag_self, fxmul_cosMag_self]
  exact ⟨roundedSquares_near m, fun hd => roundedSquares_near_grid (hgrid hd)⟩

end Sys2Proof.Machine
end

section
/-! The inverse trigonometric family: the vectoring loop as twelve turns, the range of its registers and of its angle,
and the root that ASIN and ACOS take (45_inverse_trig R195 to R200). -/

namespace Sys2Proof.Machine

/-! ## The vectoring loop, turn by turn (R196) -/

/-- Turn `i` of R196 with its stop test. -/
def cordicTurn (c : Cordic) (i : Nat) : Cordic := if c.y = 0 then c else cordicStep c i

theorem cordicTurn_of_zero {c : Cordic} (h : c.y = 0) (i : Nat) : cordicTurn c i = c := if_pos h

theorem cordicTurn_of_pos {c : Cordic} (h : 0 < c.y) (i : Nat) :
    cordicTurn c i = ⟨c.x + c.y / 2 ^ i, c.y - c.x / 2 ^ i, c.ang + atanRom i⟩ := by
  rw [cordicTurn, if_neg h.ne', cordicStep, if_pos h, asr_eq, asr_eq]

theorem cordicTurn_of_neg {c : Cordic} (h : c.y < 0) (i : Nat) :
    cordicTurn c i = ⟨c.x - c.y / 2 ^ i, c.y + c.x / 2 ^ i, c.ang - atanRom i⟩ := by
  rw [cordicTurn, if_neg h.ne, cordicStep, if_neg h.not_gt, asr_eq, asr_eq]

/-- Once `Y` is 0 the loop changes nothing. -/
theorem cordicLoop_of_zero {c : Cordic} (h : c.y = 0) (n i : Nat) : cordicLoop n i c = c := by
  cases n with
  | zero => rfl
  | succ n => exact if_pos h

/-- The loop takes its turns from the first on. -/
theorem cordicLoop_succ (n i : Nat) (c : Cordic) : cordicLoop (n + 1) i c = cordicLoop n (i + 1) (cordicTurn c i) := by
  by_cases h : c.y = 0
  · rw [cordicTurn_of_zero h, cordicLoop_of_zero h, cordicLoop_of_zero h]
  · rw [cordicLoop, cordicTurn, if_neg h, if_neg h]

/-- One step more is one turn more, of the state the steps before it leave. -/
theorem cordicLoop_succ_last (n i : Nat) (c : Cordic) :
    cordicLoop (n + 1) i c = cordicTurn (cordicLoop n i c) (i + n) := by
  induction n generalizing i c with
  | zero => exact cordicLoop_succ 0 i c
  | succ n ih => rw [cordicLoop_succ, ih, cordicLoop_succ n, Nat.add_right_comm, Nat.add_assoc]

theorem cordicLoop_zero_succ (n : Nat) (c : Cordic) : cordicLoop (n + 1) 0 c = cordicTurn (cordicLoop n 0 c) n := by
  rw [cordicLoop_succ_last, Nat.zero_add]

/-- The angle of the loop is R196's: its states after `0, 1, ..., 12` steps are the trace. -/
theorem vectoringAngle_cordicVec (y x : Int) : VectoringAngle y x (cordicVec y x) := by
  refine ⟨fun i => (cordicLoop i 0 (preRotate y x)).x, fun i => (cordicLoop i 0 (preRotate y x)).y,
    fun i => (cordicLoop i 0 (preRotate y x)).ang, ?_, fun i _ => ?_, rfl⟩
  · simp only [cordicLoop, preRotate, gt_iff_lt]
    split_ifs <;> rfl
  · simp only [cordicLoop_zero_succ, ← atanTable_eq_listedArctangent]
    refine ⟨fun h => ?_, fun h => ?_, fun h => ?_⟩
    · simp only [cordicTurn_of_zero h, and_self]
    · rw [cordicTurn_of_pos h]
      exact ⟨rfl, rfl, rfl⟩
    · rw [cordicTurn_of_neg h]
      exact ⟨rfl, rfl, rfl⟩

/-! ## The range of the angle (R195, R196) -/

/-- A turn moves the angle by at most its entry of the ATAN ROM. -/
theorem cordicTurn_ang_near (c : Cordic) (i : Nat) : ((cordicTurn c i).ang - c.ang).natAbs ≤ (atanRom i).natAbs := by
  obtain h | h | h := lt_trichotomy c.y 0
  · rw [cordicTurn_of_neg h]
    dsimp only
    omega
  · rw [cordicTurn_of_zero h]
    simp
  · rw [cordicTurn_of_pos h]
    simp

/-- `n` steps move the angle by at most the first `n` entries. -/
theorem cordicLoop_ang_near (n : Nat) (c : Cordic) :
    ((cordicLoop n 0 c).ang - c.ang).natAbs ≤ ∑ i ∈ Finset.range n, (atanRom i).natAbs := by
  induction n with
  | zero => simp [cordicLoop]
  | succ n ih =>
    have hturn := cordicTurn_ang_near (cordicLoop n 0 c) n
    rw [cordicLoop_zero_succ, Finset.sum_range_succ]
    omega

/-- The first entries of the ATAN ROM sum to no more than all twelve. -/
theorem sum_atanRom_le {n : Nat} (h : n ≤ 12) : ∑ i ∈ Finset.range n, (atanRom i).natAbs ≤ 102252 :=
  calc ∑ i ∈ Finset.range n, (atanRom i).natAbs
    _ ≤ ∑ i ∈ Finset.range 12, (atanRom i).natAbs := Finset.sum_le_sum_of_subset (Finset.range_mono h)
    _ = 102252 := by decide

theorem preRotate_axis {x : Int} (h : x < 0) : preRotate 0 x = ⟨-x, 0, 184320⟩ := by simp [preRotate, h]

theorem preRotate_right (y : Int) {x : Int} (h : 0 ≤ x) : preRotate y x = ⟨x, y, 0⟩ := if_neg h.not_gt

/-- The pre-rotation turns by a right angle at most, except on the negative half of the axis, where `Y` is 0 at once. -/
theorem preRotate_ang (y x : Int) :
    (preRotate y x).ang.natAbs ≤ 92160 ∨ (preRotate y x).y = 0 ∧ (preRotate y x).ang = 184320 := by
  unfold preRotate
  split_ifs <;> simp

theorem cordicLoop_preRotate_ang (y x : Int) {n : Nat} (h : n ≤ 12) :
    (cordicLoop n 0 (preRotate y x)).ang.natAbs ≤ 194412 := by
  obtain hright | ⟨hy, hang⟩ := preRotate_ang y x
  · have hnear := cordicLoop_ang_near n (preRotate y x)
    have hsum := sum_atanRom_le h
    omega
  · rw [cordicLoop_of_zero hy, hang]
    decide

theorem cordicVec_natAbs_le (y x : Int) : (cordicVec y x).natAbs ≤ 194412 := cordicLoop_preRotate_ang y x le_rfl

/-! ## The range of `X` and `Y` (R196) -/

/-- What bounds `X` and `Y` before turn `i`: `Y` does not grow, and `X` grows by at most `2^31 / 2^i` in turn `i`, so
that `X / 2^i` stays within the bound on `Y`. -/
structure VectoringBounds (i : Nat) (c : Cordic) : Prop where
  x_nonneg : 0 ≤ c.x
  x_le_sum : c.x + 2 * 2 ^ (31 - i) ≤ 3 * 2 ^ 31
  x_le_shifted : c.x ≤ 2 ^ 31 * 2 ^ i
  y_ge : -2 ^ 31 ≤ c.y
  y_le : c.y ≤ 2 ^ 31

theorem vectoringBounds_preRotate (y x : Word) : VectoringBounds 0 (preRotate y.toInt x.toInt) := by
  obtain ⟨hy, hy'⟩ := toInt_range y
  obtain ⟨hx, hx'⟩ := toInt_range x
  unfold preRotate
  split_ifs <;> constructor <;> dsimp only <;> omega

/-- A floor shift of a value between two multiples of the power of two. -/
theorem ediv_two_pow_range {v lo hi : Int} {i : Nat} (h : lo * 2 ^ i ≤ v) (h' : v ≤ hi * 2 ^ i) :
    lo ≤ v / 2 ^ i ∧ v / 2 ^ i ≤ hi :=
  ⟨(Int.le_ediv_iff_mul_le (by positivity)).2 h, Int.ediv_le_of_le_mul (by positivity) h'⟩

theorem vectoringBounds_turn {i : Nat} (hi : i < 31) {c : Cordic} (h : VectoringBounds i c) :
    VectoringBounds (i + 1) (cordicTurn c i) := by
  obtain ⟨hx, hsum, hshifted, hy, hy'⟩ := h
  have hpow : (2 : Int) ^ (31 - i) * 2 ^ i = 2 ^ 31 := by rw [← pow_add, Nat.sub_add_cancel hi.le]
  have hhalf : (2 : Int) ^ (31 - i) = 2 * 2 ^ (31 - (i + 1)) := by
    rw [← pow_succ', ← Nat.sub_sub, Nat.sub_add_cancel (by omega)]
  have hstep : (0 : Int) < 2 ^ (31 - i) := by positivity
  have hgrowth : (2 : Int) ^ (31 - i) ≤ 2 ^ 31 := pow_le_pow_right₀ (by decide) (Nat.sub_le 31 i)
  have hpos : (1 : Int) ≤ 2 ^ i := one_le_pow₀ (by decide)
  have hxs := ediv_two_pow_range (lo := 0) (by simpa using hx) hshifted
  obtain hneg | hzero | hypos := lt_trichotomy c.y 0
  · have hys := ediv_two_pow_range (v := c.y) (lo := -2 ^ (31 - i)) (hi := 0) (i := i) (by linarith) (by linarith)
    rw [cordicTurn_of_neg hneg]
    constructor <;> dsimp only <;> omega
  · rw [cordicTurn_of_zero hzero]
    constructor <;> omega
  · have hys := ediv_two_pow_range (v := c.y) (lo := 0) (hi := 2 ^ (31 - i)) (i := i) (by linarith) (by linarith)
    rw [cordicTurn_of_pos hypos]
    constructor <;> dsimp only <;> omega

theorem vectoringBounds_cordicLoop (y x : Word) {n : Nat} (h : n ≤ 31) :
    VectoringBounds n (cordicLoop n 0 (preRotate y.toInt x.toInt)) := by
  induction n with
  | zero => exact vectoringBounds_preRotate y x
  | succ n ih =>
    rw [cordicLoop_zero_succ]
    exact vectoringBounds_turn h (ih (Nat.le_of_succ_le h))

/-- Settles O24: the bounds on `X` and `Y` hold of the pre-rotated operands and are kept by every turn. -/
theorem cordicNeverOverflows : Obligations.CordicNeverOverflows := by
  intro y x n hn
  obtain ⟨hx, hsum, -, hy, hy'⟩ := vectoringBounds_cordicLoop y x (n := n) (by omega)
  have hgrowth : (0 : Int) < 2 ^ (31 - n) := by positivity
  exact ⟨by omega, by omega, cordicLoop_preRotate_ang _ _ hn⟩

/-! ## ATAN2 and ATAN (R195, R199) -/

theorem atan2Raw_error {y x : Int} (h : y = 0 ∧ x = 0) : atan2Raw y x = .error .domainAtan2 := if_pos h

/-- The wrap of R195 never changes the angle. -/
theorem atan2Raw_ok {y x : Int} (h : ¬ (y = 0 ∧ x = 0)) : atan2Raw y x = .ok (cordicVec y x) := by
  have hrange := cordicVec_natAbs_le y x
  rw [atan2Raw, if_neg h, wrap32_of_range (by omega) (by omega)]

theorem cordicVec_right_axis {x : Int} (h : 0 < x) : cordicVec 0 x = 0 := by
  rw [cordicVec, preRotate_right 0 h.le, cordicLoop_of_zero rfl]

theorem cordicVec_left_axis {x : Int} (h : x < 0) : cordicVec 0 x = 184320 := by
  rw [cordicVec, preRotate_axis h, cordicLoop_of_zero rfl]

/-- On the diagonal the first turn brings `Y` to 0. -/
theorem cordicVec_diagonal {y : Int} (h : 0 < y) : cordicVec y y = 46080 := by
  have hturn : cordicTurn ⟨y, y, 0⟩ 0 = ⟨y + y, 0, 46080⟩ := by
    rw [cordicTurn_of_pos h]
    simp [atanRom, atanTable]
  rw [cordicVec, preRotate_right y h.le, cordicLoop_succ, hturn, cordicLoop_of_zero rfl]

/-- Settles O23: the zero test, then the angle of the loop, whose trace, range and axis cases are the lemmas above. -/
theorem atan2IsVectoringAngle : Obligations.Atan2IsVectoringAngle := by
  intro s rd rs1 rs2 y x
  refine ⟨decode_encode (i := .atan2 rd rs1 rs2) rfl, decode_encode (i := .atan rd rs1) rfl,
    fun h => faults_of_conclude rfl (atan2Raw_error h), fun h => completes_of_conclude rfl (atan2Raw_ok h),
    vectoringAngle_cordicVec y x, vectoringAngle_cordicVec y 1024, cordicVec_natAbs_le y x,
    completes_of_conclude rfl (atan2Raw_ok (by simp)), fun hy hx => ?_, fun hy hx => ?_, fun hy hx => ?_⟩
  · rw [hy, cordicVec_right_axis hx]
  · rw [hy, cordicVec_left_axis hx]
  · rw [hx, cordicVec_diagonal hy]

/-! ## ASIN and ACOS (R197, R198, R200) -/

/-- The raw under the root of R200: the product of `1.0 + v` and `1.0 - v`, every step wrapped. -/
def wrappedProduct (v : Int) : Int := fxmul (wrap32 (1024 + v)) (wrap32 (1024 - v))

theorem root1m_eq (v : Int) : root1m v = sqrtRaw (wrappedProduct v) := rfl

/-- It is what ADD, SUB and MUL leave in registers. -/
theorem toInt_roundedProduct_eq_wrappedProduct (a : Word) :
    (BitVec.ofInt 32 (roundedProduct (1024#32 + a).toInt (1024#32 - a).toInt)).toInt = wrappedProduct a.toInt := by
  have hadd : (1024#32 + a).toInt = wrap32 (1024 + a.toInt) := toInt_add_eq_wrap32 _ _
  have hsub : (1024#32 - a).toInt = wrap32 (1024 - a.toInt) := by
    rw [← ofScalar_sub, ofScalar_toInt]
    rfl
  rw [hadd, hsub, wrappedProduct, fxmul_eq]
  exact ofScalar_toInt _

/-- Up to 1482910 in magnitude nothing wraps. -/
theorem wrappedProduct_of_le {v : Int} (h : v.natAbs ≤ 1482910) :
    wrappedProduct v = (1024 * 1024 - v * v + 512) / 1024 := by
  have hproduct : (1024 + v) * (1024 - v) = 1024 * 1024 - v * v := by ring
  have hsquare : v * v ≤ 1482910 * 1482910 := Int.natAbs_le_iff_mul_self_le.1 h
  have hsquare' : 0 ≤ v * v := mul_self_nonneg v
  rw [wrappedProduct, wrap32_of_range (by omega) (by omega), wrap32_of_range (by omega) (by omega), fxmul_eq, hproduct,
    wrap32_of_range (by omega) (by omega)]

theorem wrappedProduct_nonneg {v : Int} (h : v.natAbs ≤ 1024) : 0 ≤ wrappedProduct v := by
  have hsquare : v * v ≤ 1024 * 1024 := Int.natAbs_le_iff_mul_self_le.1 h
  rw [wrappedProduct_of_le (by omega)]
  omega

theorem wrappedProduct_neg {v : Int} (h : 1024 < v.natAbs) (h' : v.natAbs ≤ 1482910) : wrappedProduct v < 0 := by
  have hsquare : 1025 * 1025 ≤ v * v := Int.natAbs_le_iff_mul_self_le.1 h
  rw [wrappedProduct_of_le h']
  omega

theorem asinRaw_eq_bind (v : Int) : asinRaw v = (root1m v).bind (atan2Raw v) := by
  unfold asinRaw
  generalize root1m v = root
  cases root <;> rfl

theorem acosRaw_eq_bind (v : Int) : acosRaw v = (root1m v).bind (atan2Raw · v) := by
  unfold acosRaw
  generalize root1m v = root
  cases root <;> rfl

section Roots

variable {s : State} {rd rs1 : RegIdx}

/-- Below zero the root raises, and the command with it. -/
theorem faults_asin_acos (h : wrappedProduct (s.scalar rs1) < 0) :
    Faults (.asin rd rs1) s .domainSqrt ∧ Faults (.acos rd rs1) s .domainSqrt := by
  have hroot : root1m (s.scalar rs1) = .error .domainSqrt := sqrtRaw_of_neg h
  exact ⟨faults_of_conclude rfl (by rw [asinRaw_eq_bind, hroot, Except.bind]),
    faults_of_conclude rfl (by rw [acosRaw_eq_bind, hroot, Except.bind])⟩

/-- From zero on the two angles are given: operand and root are never both 0, as the root at 0 is that of 1.0. -/
theorem completes_asin_acos (h : 0 ≤ wrappedProduct (s.scalar rs1)) :
    ∃ r, NearestRoot (wrappedProduct (s.scalar rs1)) r ∧
      Completes (.asin rd rs1) s (ofScalar (cordicVec (s.scalar rs1) r)) ∧
      Completes (.acos rd rs1) s (ofScalar (cordicVec r (s.scalar rs1))) := by
  obtain ⟨r, hroot, hnear⟩ := sqrtRaw_nearestRoot h (fxmul_range _ _).2
  rw [← root1m_eq] at hroot
  have hne : ¬ (s.scalar rs1 = 0 ∧ r = 0) := fun ⟨hv, hr⟩ => by
    rw [hv] at hnear
    have := nearestRoot_ge hnear (by decide)
    omega
  have hne' : ¬ (r = 0 ∧ s.scalar rs1 = 0) := fun h => hne h.symm
  exact ⟨r, hnear, completes_of_conclude rfl (by rw [asinRaw_eq_bind, hroot, Except.bind, atan2Raw_ok hne]),
    completes_of_conclude rfl (by rw [acosRaw_eq_bind, hroot, Except.bind, atan2Raw_ok hne'])⟩

end Roots

/-- Settles O25: the product decides between the fault and the two angles. -/
theorem asinAcosThroughWrappedRoot : Obligations.AsinAcosThroughWrappedRoot := by
  intro s rd rs1 a p
  have hp : p = wrappedProduct (s.scalar rs1) := toInt_roundedProduct_eq_wrappedProduct a
  refine ⟨decode_encode (i := .asin rd rs1) rfl, decode_encode (i := .acos rd rs1) rfl,
    fun h => faults_asin_acos (hp ▸ h), fun h => ?_⟩
  obtain ⟨r, hnear, hasin, hacos⟩ := completes_asin_acos (rd := rd) (hp ▸ h)
  exact ⟨r, hp ▸ hnear, vectoringAngle_cordicVec _ _, vectoringAngle_cordicVec _ _, hasin, hacos⟩

/-- Settles O26: in the first range the product is not negative, in the second it is. -/
theorem asinAcosDomain : Obligations.AsinAcosDomain := by
  intro s rd rs1 v
  refine ⟨fun h => ?_, fun h h' => faults_asin_acos (wrappedProduct_neg h h')⟩
  obtain ⟨r, -, hasin, hacos⟩ := completes_asin_acos (rd := rd) (wrappedProduct_nonneg h)
  exact ⟨⟨_, hasin⟩, _, hacos⟩

end Sys2Proof.Machine
end

section
/-! The power family: the exponentiation loop, the two branches of POW, the series with its scaling, and LOG2 of a power
of 2.0 (46_pow_exp R210 to R215; the normalisation of 47_log R225). -/

namespace Sys2Proof.Machine

/-! ## The exponentiation loop (R212) -/

/-- The base after `j` squarings. -/
def squaredBase (base : Int) (j : Nat) : Int := (fun p => fxmul p p)^[j] base

theorem squaredBase_zero (base : Int) : squaredBase base 0 = base := rfl

theorem squaredBase_fxmul_self (base : Int) (j : Nat) :
    squaredBase (fxmul base base) j = squaredBase base (j + 1) := rfl

theorem squaredBase_succ (base : Int) (j : Nat) :
    squaredBase base (j + 1) = fxmul (squaredBase base j) (squaredBase base j) :=
  Function.iterate_succ_apply' _ j base

theorem powLoop_zero (cap : Nat) (r base : Int) : powLoop cap r base 0 = r := by
  cases cap <;> rfl

/-- One pass: skipping the final squaring changes no result. -/
theorem powLoop_succ (cap : Nat) (r base : Int) (n : Nat) :
    powLoop (cap + 1) r base n =
      powLoop cap (if n % 2 = 1 then fxmul r base else r) (fxmul base base) (n / 2) := by
  obtain rfl | hn := eq_or_ne n 0
  · simp [powLoop_zero]
  · rw [powLoop, if_neg hn]
    by_cases hlast : n / 2 = 0
    · rw [hlast, powLoop_zero, powLoop_zero]
    · rw [if_pos hlast]

/-- The last of `cap + 1` passes multiplies by the base after `cap` squarings when bit `cap` is set. -/
theorem powLoop_succ_last (cap : Nat) (r base : Int) (n : Nat) :
    powLoop (cap + 1) r base n =
      if n.testBit cap then fxmul (powLoop cap r base n) (squaredBase base cap) else powLoop cap r base n := by
  induction cap generalizing r base n with
  | zero =>
    rw [powLoop_succ, squaredBase_zero, Nat.testBit_zero]
    simp [powLoop]
  | succ cap ih => rw [powLoop_succ, ih, ← powLoop_succ, squaredBase_fxmul_self, Nat.testBit_succ]

/-- Passes beyond the bits of the exponent change nothing. -/
theorem powLoop_add_of_lt {cap n : Nat} (h : n < 2 ^ cap) (r base : Int) (k : Nat) :
    powLoop (cap + k) r base n = powLoop cap r base n := by
  induction k with
  | zero => rfl
  | succ k ih =>
    have hbit : n.testBit (cap + k) = false :=
      Nat.testBit_lt_two_pow (h.trans_le (Nat.pow_le_pow_right two_pos (Nat.le_add_right cap k)))
    rw [← add_assoc, powLoop_succ_last, hbit, ih]
    rfl

/-- Settles O30: an exponent of at most `2 ^ 21` has no bit above the 22 of the loop. -/
theorem powLoopWithinBound : Obligations.PowLoopWithinBound := by
  intro r base n cap hn hcap
  obtain ⟨k, rfl⟩ := Nat.exists_eq_add_of_le hcap
  exact powLoop_add_of_lt (hn.trans_lt (by decide)) r base k

/-- The product of two whole numbers is whole, each known up to the wrap only. -/
theorem fxmul_whole {p q a c : Int} (hp : p ≡ 1024 * a [ZMOD 4294967296]) (hq : q ≡ 1024 * c [ZMOD 4294967296]) :
    fxmul p q ≡ 1024 * (a * c) [ZMOD 4294967296] := by
  obtain ⟨k, hk⟩ := hp.symm.dvd
  obtain ⟨l, hl⟩ := hq.symm.dvd
  have hproduct : p * q = 1024 * (1024 * ((a + 4194304 * k) * (c + 4194304 * l))) := by
    rw [show p = 1024 * (a + 4194304 * k) by omega, show q = 1024 * (c + 4194304 * l) by omega]
    ring
  have hexact : (p * q + 512) / 1024 = 1024 * ((a + 4194304 * k) * (c + 4194304 * l)) := by omega
  rw [fxmul_eq, hexact]
  exact (wrap32_emod _).trans (Int.modEq_iff_dvd.2 ⟨-(a * l + k * c + 4194304 * (k * l)), by ring⟩)

/-- On whole numbers square-and-multiply is the power, up to the wrap. -/
theorem powLoop_whole {cap n : Nat} {r base a c : Int} (hn : n < 2 ^ cap) (hr : r ≡ 1024 * a [ZMOD 4294967296])
    (hbase : base ≡ 1024 * c [ZMOD 4294967296]) :
    powLoop cap r base n ≡ 1024 * (a * c ^ n) [ZMOD 4294967296] := by
  induction cap generalizing n r base a c with
  | zero =>
    obtain rfl : n = 0 := by omega
    simpa [powLoop_zero] using hr
  | succ cap ih =>
    have hsquare : c ^ n = (c * c) ^ (n / 2) * c ^ (n % 2) := by
      rw [← sq, ← pow_mul, ← pow_add, Nat.div_add_mod]
    have hhalf : n / 2 < 2 ^ cap := by omega
    rw [powLoop_succ, hsquare]
    obtain hbit | hbit := Nat.mod_two_eq_zero_or_one n
    · rw [hbit, if_neg zero_ne_one, pow_zero, mul_one]
      exact ih hhalf hr (fxmul_whole hbase hbase)
    · rw [hbit, if_pos rfl, pow_one, mul_comm _ c, ← mul_assoc a]
      exact ih hhalf (fxmul_whole hr hbase) (fxmul_whole hbase hbase)

/-! ## The branches of POW (R211, R212) -/

theorem powRaw_one {b x : Int} (h : b = 1024 ∨ x = 0) : powRaw b x = .ok 1024 := if_pos h

theorem powRaw_whole {b x : Int} (hb : b ≠ 1024) (hx : x ≠ 0) (h : x % 1024 = 0) :
    powRaw b x = powInt b (x / 1024) := by
  rw [← asr_fracBits]
  exact (if_neg (not_or.2 ⟨hb, hx⟩)).trans (if_pos h)

theorem powRaw_frac {b x : Int} (hb : b ≠ 1024) (h : x % 1024 ≠ 0) : powRaw b x = powFrac b x :=
  (if_neg (not_or.2 ⟨hb, by rintro rfl; exact h rfl⟩)).trans (if_neg h)

/-- Settles O27: the first test of POW. -/
theorem powOfOneOrZeroExponent : Obligations.PowOfOneOrZeroExponent := by
  intro s rd rs1 rs2 h
  have hx : s.readReg rs2 = 0#32 → s.scalar rs2 = 0 := fun h0 => by rw [State.scalar, h0]; rfl
  exact ⟨decode_encode (i := .pow rd rs1 rs2) rfl, completes_of_conclude rfl (powRaw_one (h.imp_right hx))⟩

/-- The base the loop starts from: for a negative exponent the rounded reciprocal. -/
def powStart (b n : Int) : Int := if n < 0 then wrap32 (roundedQuotient 1024 b) else b

theorem powInt_error {b n : Int} (hn : n < 0) (hb : b = 0) : powInt b n = .error .divideByZero := by
  rw [powInt, if_pos hn, hb, fxdiv_zero]

theorem powInt_ok {b n : Int} (h : ¬ (n < 0 ∧ b = 0)) :
    powInt b n = .ok (powLoop 22 1024 (powStart b n) n.natAbs) := by
  unfold powInt powStart
  split
  case isTrue hn =>
    rw [fxdiv_of_ne_zero _ fun hb => h ⟨hn, hb⟩]
  case isFalse => rfl

/-- The integer part of a Scalar has no bit above the 22 of the loop. -/
theorem natAbs_toInt_ediv_lt (w : Word) : (w.toInt / 1024).natAbs < 2 ^ 22 := by
  have hrange := toInt_range w
  omega

/-- MUL's result read back. -/
theorem toInt_ofInt_roundedProduct (p q : Int) : (BitVec.ofInt 32 (roundedProduct p q)).toInt = fxmul p q :=
  (ofScalar_toInt _).trans (fxmul_eq p q).symm

/-- Settles O59: the passes of the loop are the products, the squarings of its base the bases. -/
theorem powWholeIsSquareAndMultiply : Obligations.PowWholeIsSquareAndMultiply := by
  intro s rd rs1 rs2 b x n mul hfrac hx hb
  have hpow : powRaw b x = powInt b n := powRaw_whole hb hx hfrac
  refine ⟨fun hn hzero => faults_of_conclude rfl (hpow.trans (powInt_error hn hzero)), fun h => ?_⟩
  refine ⟨squaredBase (powStart b n), fun j => powLoop j 1024 (powStart b n) n.natAbs, ?_, rfl, ?_, ?_,
    natAbs_toInt_ediv_lt _, completes_of_conclude rfl (hpow.trans (powInt_ok h))⟩
  · exact congrArg (ite (n < 0) · b) (ofScalar_toInt _).symm
  · intro j _
    exact (squaredBase_succ _ j).trans (toInt_ofInt_roundedProduct _ _).symm
  · intro j _
    simp only [mul, toInt_ofInt_roundedProduct]
    exact powLoop_succ_last j _ _ _

/-- POW of whole numbers, up to the wrap (C6). -/
theorem powRaw_whole_base (m : Int) {n : Nat} (hn : n < 2 ^ 21) :
    ∃ v, powRaw (1024 * m) (1024 * n) = .ok v ∧ wrap32 v = wrap32 (1024 * m ^ n) := by
  by_cases hone : 1024 * m = 1024 ∨ (1024 * (n : Int)) = 0
  · refine ⟨1024, powRaw_one hone, ?_⟩
    have hpow : m ^ n = 1 := by
      obtain h | h := hone
      · rw [show m = 1 by omega, one_pow]
      · rw [show n = 0 by omega, pow_zero]
    rw [hpow, mul_one]
  · obtain ⟨hb, hx⟩ := not_or.1 hone
    have hn' : (1024 * (n : Int)) / 1024 = n := by omega
    refine ⟨powLoop 22 1024 (1024 * m) n, ?_, ?_⟩
    · rw [powRaw_whole hb hx (by omega), hn', powInt_ok (by omega), powStart, if_neg (by omega), Int.natAbs_natCast]
    · have h := powLoop_whole (cap := 22) (a := 1) (hn.trans (by decide)) (Int.ModEq.refl _)
        (Int.ModEq.refl (1024 * m))
      rw [one_mul] at h
      exact wrap32_congr h

/-- Settles O29: the power of whole numbers, written with the wrap. -/
theorem powOfIntegersIsExact : Obligations.PowOfIntegersIsExact := by
  intro s rd rs1 rs2 m n hm hn
  have hrange := toInt_range (s.readReg rs2)
  obtain ⟨v, hv, hwrap⟩ := powRaw_whole_base m (n := n) (by omega)
  have h : Completes (.pow rd rs1 rs2) s (ofScalar v) :=
    completes_of_conclude rfl (by rw [State.scalar, State.scalar, hm, hn, hv])
  rwa [← ofScalar_wrap32, hwrap, ofScalar_wrap32] at h

/-! ## The normalisation and the bits of LOG2 (47_log R225) -/

theorem normDown_of_lt {v : Int} (h : v < 2048) (n : Nat) (e : Int) : normDown n v e = (v, e) := by
  cases n with
  | zero => rfl
  | succ n => rw [normDown, if_neg (not_le.2 h)]

theorem normUp_of_ge {v : Int} (h : 1024 ≤ v) (n : Nat) (e : Int) : normUp n v e = (v, e) := by
  cases n with
  | zero => rfl
  | succ n => rw [normUp, if_neg (not_lt.2 h)]

theorem normDown_of_scale {k n : Nat} (hk : k ≤ n) {v : Int} (e : Int)
    (h : 1024 * 2 ^ k ≤ v) (h' : v < 2048 * 2 ^ k) : normDown n v e = (v / 2 ^ k, e + k) := by
  induction k generalizing n v e with
  | zero => simp [normDown_of_lt (by simpa using h')]
  | succ k ih =>
    obtain ⟨n, rfl⟩ := Nat.exists_eq_add_of_le' (show 1 ≤ n by omega)
    have hpow : (0 : Int) < 2 ^ k := by positivity
    rw [pow_succ] at h h'
    rw [normDown, if_pos (by omega), asr_eq, pow_one, ih (by omega) _ (by omega) (by omega),
      Int.ediv_ediv_of_nonneg zero_le_two, ← pow_succ', Nat.cast_succ, add_assoc, add_comm 1]

theorem normUp_of_scale {k n : Nat} (hk : k ≤ n) {v : Int} (e : Int)
    (h : 1024 ≤ v * 2 ^ k) (h' : v * 2 ^ k < 2048) : normUp n v e = (v * 2 ^ k, e - k) := by
  induction k generalizing n v e with
  | zero => simp [normUp_of_ge (by simpa using h)]
  | succ k ih =>
    obtain ⟨n, rfl⟩ := Nat.exists_eq_add_of_le' (show 1 ≤ n by omega)
    have hv : v < 1024 := by
      by_contra hv
      have hge := Int.mul_le_mul (not_lt.1 hv) (one_le_pow₀ one_le_two : (1 : Int) ≤ 2 ^ k) one_pos.le (by omega)
      rw [pow_succ, ← mul_assoc] at h'
      omega
    have hdouble : v * 2 ^ (k + 1) = v * 2 * 2 ^ k := by rw [pow_succ', mul_assoc]
    rw [hdouble] at h h'
    rw [normUp, if_pos hv, shiftLeft_eq, pow_one, ih (by omega) _ h h', hdouble, Nat.cast_succ, sub_sub, add_comm 1]

theorem normalise_of_ge {k : Nat} (hk : k ≤ 20) {v : Int} (h : 1024 * 2 ^ k ≤ v) (h' : v < 2048 * 2 ^ k) :
    normalise v = (v / 2 ^ k, (k : Int)) := by
  have hpow : (0 : Int) < 2 ^ k := by positivity
  rw [normalise, normDown_of_scale hk 0 h h', normUp_of_ge ((Int.le_ediv_iff_mul_le hpow).2 h), zero_add]

theorem normalise_of_le {k : Nat} (hk : k ≤ 10) {v : Int} (h : 1024 ≤ v * 2 ^ k) (h' : v * 2 ^ k < 2048) :
    normalise v = (v * 2 ^ k, -(k : Int)) := by
  have hpow : (1 : Int) ≤ 2 ^ k := one_le_pow₀ one_le_two
  have hv : v < 2048 := by nlinarith
  rw [normalise, normDown_of_lt hv, normUp_of_scale hk 0 h h', zero_sub]

/-- Each step appends one bit to `f`. -/
theorem extractBits_range (n : Nat) (x f : Int) :
    2 ^ n * f ≤ extractBits n x f ∧ extractBits n x f < 2 ^ n * (f + 1) := by
  induction n generalizing x f with
  | zero => simp [extractBits]
  | succ n ih =>
    have hpow : (0 : Int) < 2 ^ n := by positivity
    rw [extractBits, pow_succ]
    split
    · obtain ⟨hlow, hhigh⟩ := ih (asr (fxmul x x) 1) (2 * f + 1)
      constructor <;> linarith
    · obtain ⟨hlow, hhigh⟩ := ih (fxmul x x) (2 * f)
      constructor <;> linarith

theorem two_pow_log2_le {v : Int} (h : 0 < v) : 2 ^ Nat.log2 v.toNat ≤ v ∧ v < 2 ^ (Nat.log2 v.toNat + 1) := by
  have hv : ((v.toNat : Nat) : Int) = v := Int.toNat_of_nonneg h.le
  have hlow := Nat.log2_self_le (n := v.toNat) (by omega)
  have hhigh := Nat.lt_log2_self (n := v.toNat)
  zify at hlow hhigh
  rw [hv] at hlow hhigh
  exact ⟨hlow, hhigh⟩

theorem log2_toNat_le {v : Int} (h : 0 < v) (h' : v < 2147483648) : Nat.log2 v.toNat ≤ 30 :=
  Nat.lt_succ_iff.1 ((Nat.log2_lt (by omega)).2 (by omega))

/-- The exponent is the floor of the exact logarithm. -/
theorem normalise_exponent {v : Int} (h : 0 < v) (h' : v < 2147483648) :
    (normalise v).2 = (Nat.log2 v.toNat : Int) - 10 := by
  obtain ⟨hlow, hhigh⟩ := two_pow_log2_le h
  have hbits := log2_toNat_le h h'
  generalize Nat.log2 v.toNat = l at *
  obtain hl | hl := le_total 10 l
  · obtain ⟨k, rfl⟩ := Nat.exists_eq_add_of_le hl
    rw [pow_add] at hlow
    rw [add_right_comm, pow_add] at hhigh
    rw [normalise_of_ge (by omega : k ≤ 20) (by omega) (by omega)]
    show (k : Int) = (10 + k : Nat) - 10
    omega
  · obtain ⟨k, hk⟩ := Nat.exists_eq_add_of_le hl
    have hpow : (0 : Int) < 2 ^ k := by positivity
    have hscale : (2 : Int) ^ l * 2 ^ k = 1024 := by rw [← pow_add, ← hk]; rfl
    have hlow' := mul_le_mul_of_nonneg_right hlow hpow.le
    have hhigh' := mul_lt_mul_of_pos_right hhigh hpow
    rw [pow_succ, mul_right_comm] at hhigh'
    rw [normalise_of_le (by omega : k ≤ 10) (by omega) (by omega)]
    show -(k : Int) = l - 10
    omega

theorem normalise_exponent_range {v : Int} (h : 0 < v) (h' : v < 2147483648) :
    -10 ≤ (normalise v).2 ∧ (normalise v).2 ≤ 20 := by
  have hbits := log2_toNat_le h h'
  rw [normalise_exponent h h']
  omega

theorem log2Raw_error {v : Int} (h : v ≤ 0) : log2Raw v = .error .domainLog := if_pos h

/-- The wrap of R225 never changes the result. -/
theorem log2Raw_ok {v : Int} (h : 0 < v) (h' : v < 2147483648) :
    log2Raw v = .ok (1024 * (normalise v).2 + extractBits 10 (normalise v).1 0) := by
  have he := normalise_exponent_range h h'
  have hbits := extractBits_range 10 (normalise v).1 0
  rw [log2Raw, if_neg (not_le.2 h), shiftLeft_fracBits, Config.logSteps, wrap32_of_range (by omega) (by omega)]

theorem log2Raw_range {v : Int} (h : 0 < v) (h' : v < 2147483648) :
    ∃ l, log2Raw v = .ok l ∧ -10240 ≤ l ∧ l ≤ 21503 := by
  have he := normalise_exponent_range h h'
  have hbits := extractBits_range 10 (normalise v).1 0
  exact ⟨_, log2Raw_ok h h', by omega, by omega⟩

/-! ## Where POW faults, and EXP (R210, R211, R213) -/

theorem powFrac_error {b x : Int} (h : b ≤ 0) : powFrac b x = .error .domainLog := by
  rw [powFrac, log2Raw_error h]

theorem powFrac_ok {b x l : Int} (h : log2Raw b = .ok l) : powFrac b x = .ok (powOfLog x l) := by
  rw [powFrac, h]

/-- Settles O28: each branch with its one fault. -/
theorem powFaultsExactly : Obligations.PowFaultsExactly := by
  intro s rd rs1 rs2 b x hb hx
  refine ⟨fun hfrac hzero hneg => ?_, fun hfrac h => ?_, fun hfrac h => ?_, fun hfrac h => ?_⟩
  · exact faults_of_conclude rfl ((powRaw_whole hb hx hfrac).trans (powInt_error (by omega) hzero))
  · exact ⟨_, completes_of_conclude rfl ((powRaw_whole hb hx hfrac).trans (powInt_ok (by omega)))⟩
  · exact faults_of_conclude rfl ((powRaw_frac hb hfrac).trans (powFrac_error h))
  · obtain ⟨l, hl, -⟩ := log2Raw_range h (toInt_range _).2
    exact ⟨_, completes_of_conclude rfl ((powRaw_frac hb hfrac).trans (powFrac_ok hl))⟩

theorem powRaw_romE_ok (x : Int) : ∃ v, powRaw romE x = .ok v := by
  by_cases hx : x = 0
  · exact ⟨_, powRaw_one (.inr hx)⟩
  by_cases hfrac : x % 1024 = 0
  · exact ⟨_, (powRaw_whole (by decide) hx hfrac).trans (powInt_ok fun h => absurd h.2 (by decide))⟩
  · obtain ⟨l, hl, -⟩ := log2Raw_range (v := romE) (by decide) (by decide)
    exact ⟨_, (powRaw_frac (by decide) hfrac).trans (powFrac_ok hl)⟩

/-- Settles O32: no branch of POW faults for the ROM's e, and EXP is POW's function of it. -/
theorem expIsPowOfRomE : Obligations.ExpIsPowOfRomE := by
  intro s rd rs1
  obtain ⟨v, hv⟩ := powRaw_romE_ok (s.scalar rs1)
  refine ⟨decode_encode (i := .exp rd rs1) rfl, ⟨_, completes_of_conclude rfl hv⟩, fun rb hrb => ?_⟩
  have hbase : s.scalar rb = romE := by rw [State.scalar, hrb]; rfl
  exact congrArg (fun b => s.conclude rd (powRaw b (s.scalar rs1))) hbase.symm

/-! ## The series (R213) -/

theorem roundedProduct_range {a a' b b' : Int} (ha : 0 ≤ a ∧ a ≤ a') (hb : 0 ≤ b ∧ b ≤ b') :
    0 ≤ roundedProduct a b ∧ roundedProduct a b ≤ roundedProduct a' b' := by
  have hlow := mul_nonneg ha.1 hb.1
  have hhigh := mul_le_mul ha.2 hb.2 hb.1 (ha.1.trans ha.2)
  unfold roundedProduct
  omega

/-- A product of values in `[0, 1.0]` does not wrap. -/
theorem fxmul_of_le_one {a b : Int} (ha : 0 ≤ a ∧ a ≤ 1024) (hb : 0 ≤ b ∧ b ≤ 1024) :
    fxmul a b = roundedProduct a b := by
  obtain ⟨hlow, hhigh⟩ := roundedProduct_range ha hb
  rw [roundedProduct_one] at hhigh
  rw [fxmul_eq, ← roundedProduct, wrap32_of_range (by omega) (by omega)]

/-- `z` to the power `k + 1`, rounded at every multiply. -/
def roundedPower (z : Int) : Nat → Int
  | 0 => z
  | k + 1 => roundedProduct (roundedPower z k) z

/-- The series' term of index `k + 2`. -/
def seriesTerm (z : Int) (k : Nat) : Int := roundedProduct (roundedPower z (k + 1)) (invFactRom (k + 2))

theorem invFactRom_range (k : Nat) : 0 ≤ invFactRom k ∧ invFactRom k ≤ 512 :=
  getD_of_forall (p := fun x : Int => 0 ≤ x ∧ x ≤ 512) (by decide) (by decide) _

section Series

variable {z : Int} (hz : 0 ≤ z ∧ z ≤ 709)

include hz

theorem roundedPower_range (k : Nat) : 0 ≤ roundedPower z k ∧ roundedPower z k ≤ roundedPower 709 k := by
  induction k with
  | zero => exact hz
  | succ k ih => exact roundedProduct_range ih hz

theorem roundedPower_le (k : Nat) : 0 ≤ roundedPower z k ∧ roundedPower z k ≤ 709 := by
  induction k with
  | zero => exact hz
  | succ k ih => exact (roundedProduct_range ih hz).imp_right (·.trans (by decide))

theorem seriesTerm_range (k : Nat) : 0 ≤ seriesTerm z k ∧ seriesTerm z k ≤ seriesTerm 709 k :=
  roundedProduct_range (roundedPower_range hz _) ⟨(invFactRom_range _).1, le_rfl⟩

/-- The loop adds one term a pass, and no product wraps. -/
theorem seriesLoop_eq (n k : Nat) (s : Int) :
    seriesLoop z n (k + 2) (roundedPower z k) s = s + ∑ i ∈ Finset.range n, seriesTerm z (k + i) := by
  induction n generalizing k s with
  | zero => simp [seriesLoop]
  | succ n ih =>
    have hone : ∀ {v : Int}, 0 ≤ v ∧ v ≤ 709 → 0 ≤ v ∧ v ≤ 1024 := fun h => h.imp_right (·.trans (by decide))
    have hshift : ∀ i, k + 1 + i = k + (i + 1) := fun i => by omega
    have hpower : fxmul (roundedPower z k) z = roundedPower z (k + 1) :=
      fxmul_of_le_one (hone (roundedPower_le hz k)) (hone hz)
    have hterm : fxmul (roundedPower z (k + 1)) (invFactRom (k + 2)) = seriesTerm z k :=
      fxmul_of_le_one (hone (roundedPower_le hz (k + 1))) ((invFactRom_range _).imp_right (·.trans (by decide)))
    rw [seriesLoop, hpower, hterm, ih (k + 1), Finset.sum_range_succ', add_zero, add_assoc s,
      add_comm (seriesTerm z k)]
    simp only [hshift]

theorem expSeries_eq : expSeries z = 1024 + z + ∑ i ∈ Finset.range 5, seriesTerm z i := by
  have h := seriesLoop_eq hz 5 0 (1024 + z)
  simp only [zero_add] at h
  exact h

theorem expSeries_range : 1024 ≤ expSeries z ∧ expSeries z ≤ 2047 := by
  have hlow : 0 ≤ ∑ i ∈ Finset.range 5, seriesTerm z i := Finset.sum_nonneg fun i _ => (seriesTerm_range hz i).1
  have hhigh : ∑ i ∈ Finset.range 5, seriesTerm z i ≤ ∑ i ∈ Finset.range 5, seriesTerm 709 i :=
    Finset.sum_le_sum fun i _ => (seriesTerm_range hz i).2
  have hmax : ∑ i ∈ Finset.range 5, seriesTerm 709 i = 314 := by decide
  rw [expSeries_eq hz]
  omega

end Series

/-! ## The scaled series (R213, R214) -/

/-- The argument of the series: `ln 2` times the fraction of `t`. -/
theorem seriesArgument_range (t : Int) :
    0 ≤ roundedProduct (t % 1024) 710 ∧ roundedProduct (t % 1024) 710 ≤ 709 :=
  roundedProduct_range (a' := 1023) (b' := 710) (by omega) (by decide)

theorem powOfLog_eq (x l : Int) :
    powOfLog x l = scale (expSeries (roundedProduct (fxmul x l % 1024) 710)) (fxmul x l / 1024) := by
  rw [← fxmul_of_le_one (by omega) (by decide), ← asr_fracBits]
  rfl

theorem scale_of_nonneg {s ip : Int} (h : 0 ≤ ip) : scale s ip = wrap32 (s * 2 ^ ip.toNat) := by
  rw [scale, if_pos h, shiftLeft_eq]

theorem scale_of_neg {s ip : Int} (h : ip < 0) : scale s ip = s / 2 ^ (-ip).toNat := by
  rw [scale, if_neg (not_le.2 h), asr_eq]

/-- Settles O31: the logarithm, the series in its fraction and the shift by its integer part, lemma by lemma. -/
theorem powFractionalIsSeries : Obligations.PowFractionalIsSeries := by
  intro s rd re rs1 rs2 b x hfrac hb
  have hpow : powRaw b x = powFrac b x := powRaw_frac hb hfrac
  refine ⟨fun h => faults_of_conclude rfl (hpow.trans (powFrac_error h)), fun h => ?_⟩
  obtain ⟨l, hl, hlow, hhigh⟩ := log2Raw_range h (toInt_range _).2
  refine ⟨l, completes_of_conclude rfl hl, hlow, hhigh, ?_⟩
  intro t z p2 p3 p4 p5 p6 e
  have ht : t = fxmul x l := toInt_ofInt_roundedProduct x l
  have hz : 0 ≤ z ∧ z ≤ 709 := seriesArgument_range t
  have he : expSeries z = e := by
    rw [expSeries_eq hz]
    simp only [Finset.sum_range_succ, Finset.sum_range_zero, zero_add, ← add_assoc]
    rfl
  have hresult : powRaw b x = .ok (scale e (t / 1024)) := by
    rw [hpow, powFrac_ok hl, powOfLog_eq, ← ht, ← he]
  have hrange := expSeries_range hz
  rw [he] at hrange
  refine ⟨hz.1, hz.2, ?_, hrange.1, hrange.2, fun hip => ?_, fun hip => ?_⟩
  · have hpowers := roundedPower_le hz
    simp only [List.forall_mem_cons]
    exact ⟨hpowers 1, hpowers 2, hpowers 3, hpowers 4, hpowers 5, List.forall_mem_nil _⟩
  · have hdone : Completes (.pow rd rs1 rs2) s (ofScalar (scale e (t / 1024))) := completes_of_conclude rfl hresult
    rwa [scale_of_nonneg hip, ofScalar_wrap32] at hdone
  · exact completes_of_conclude rfl (hresult.trans (congrArg _ (scale_of_neg hip)))

/-! ## LOG2 of a power of 2.0 (R215) -/

/-- LOG2's bits of the series for `z` are `z` over the ROM's ln 2 to within 2 raws. R215's bound is a
measurement, so every argument of the series is evaluated. -/
theorem extractBits_expSeries_near :
    ∀ z : Nat, z < 710 → (710 * extractBits 10 (expSeries z) 0 - 1024 * z).natAbs ≤ 1358 := by
  decide +kernel

/-- They recover the fraction the series was taken of. -/
theorem extractBits_fraction_near {f : Int} (h : 0 ≤ f) (h' : f < 1024) :
    (extractBits 10 (expSeries (roundedProduct f 710)) 0 - f).natAbs ≤ 2 := by
  obtain ⟨hlow, hhigh⟩ := roundedProduct_nearest f 710
  generalize roundedProduct f 710 = z at *
  obtain ⟨z, rfl⟩ := Int.eq_ofNat_of_zero_le (show 0 ≤ z by omega)
  have hnear := extractBits_expSeries_near z (by omega)
  omega

theorem scaled_range {s : Int} {k : Nat} (hs : 1024 ≤ s ∧ s ≤ 2047) (hk : k ≤ 20) :
    1024 * 2 ^ k ≤ s * 2 ^ k ∧ s * 2 ^ k < 2048 * 2 ^ k ∧ s * 2 ^ k < 2147483648 := by
  have hpow : (0 : Int) < 2 ^ k := by positivity
  have hmax : (2 : Int) ^ k ≤ 2 ^ 20 := pow_le_pow_right₀ one_le_two hk
  have hlow := mul_le_mul_of_nonneg_right hs.1 hpow.le
  have hhigh := mul_le_mul_of_nonneg_right hs.2 hpow.le
  omega

theorem log2Raw_scaled {s : Int} {k : Nat} (hs : 1024 ≤ s ∧ s ≤ 2047) (hk : k ≤ 20) :
    log2Raw (s * 2 ^ k) = .ok (1024 * k + extractBits 10 s 0) := by
  obtain ⟨hlow, hhigh, hrange⟩ := scaled_range hs hk
  have hpow : (0 : Int) < 2 ^ k := by positivity
  rw [log2Raw_ok (by omega) hrange, normalise_of_ge hk hlow hhigh, Int.mul_ediv_cancel _ hpow.ne']

/-- POW of base 2.0: the series of the fraction, which is 1.0 for a whole exponent, shifted by the integer part. -/
theorem powRaw_two {x : Int} (h : 0 ≤ x) (h' : x < 21504) :
    ∃ v, powRaw 2048 x = .ok v ∧
      wrap32 v = expSeries (roundedProduct (x % 1024) 710) * 2 ^ (x / 1024).toNat := by
  obtain ⟨hlow, -, hrange⟩ := scaled_range (k := (x / 1024).toNat) (expSeries_range (seriesArgument_range x))
    (by omega)
  have hpow : (0 : Int) < 2 ^ (x / 1024).toNat := by positivity
  have hwrap := wrap32_of_range (by omega) hrange
  by_cases hfrac : x % 1024 = 0
  · obtain ⟨v, hv, hvalue⟩ := powRaw_whole_base 2 (n := (x / 1024).toNat) (by omega)
    rw [show 1024 * ((x / 1024).toNat : Int) = x by omega] at hv
    rw [hfrac] at hwrap ⊢
    exact ⟨v, hv, hvalue.trans hwrap⟩
  · have hx : fxmul x 1024 = x := by
      rw [fxmul_eq, ← roundedProduct, roundedProduct_one, wrap32_of_range (by omega) (by omega)]
    refine ⟨_, (powRaw_frac (by decide) hfrac).trans (powFrac_ok (l := 1024) rfl), ?_⟩
    rw [powOfLog_eq, hx, scale_of_nonneg (by omega), hwrap, hwrap]

/-- Its logarithm has the integer part exact and the fraction near. -/
theorem log2Raw_powRaw_two {x : Int} (h : 0 ≤ x) (h' : x < 21504) :
    ∃ v l, powRaw 2048 x = .ok v ∧ log2Raw (wrap32 v) = .ok l ∧ wrap32 l = l ∧ (l - x).natAbs ≤ 2 := by
  obtain ⟨v, hv, hvalue⟩ := powRaw_two h h'
  have hlog := log2Raw_scaled (k := (x / 1024).toNat) (expSeries_range (seriesArgument_range x)) (by omega)
  have hnear := extractBits_fraction_near (f := x % 1024) (by omega) (by omega)
  exact ⟨v, _, hv, hvalue ▸ hlog, wrap32_of_range (by omega) (by omega), by omega⟩

/-- Settles O37: what POW leaves in `rd` is LOG2's operand, and neither result wraps in its register. -/
theorem log2RecoversPowOfTwo : Obligations.Log2RecoversPowOfTwo := by
  intro s rd re rs1 rs2 hrd hre hbase h h'
  obtain ⟨v, l, hv, hl, hwrap, hnear⟩ := log2Raw_powRaw_two h h'
  have hpow : powRaw (s.scalar rs1) (s.scalar rs2) = .ok v := by rwa [State.scalar, hbase]
  obtain ⟨t, ht, hpower⟩ := completes_of_conclude (i := .pow rd rs1 rs2) (s := s) rfl hpow
  have hlog : log2Raw (t.scalar rd) = .ok l := by
    rwa [State.scalar, toInt_readReg_of_completed (rd := rd) hpower hrd]
  obtain ⟨u, hu, hresult⟩ := completes_of_conclude (i := .log2 re rd) (s := t) rfl hlog
  refine ⟨t, u, ht, hu, ?_⟩
  rwa [toInt_readReg_of_completed (rd := re) hresult hre, hwrap]

end Sys2Proof.Machine
end

section
/-! The logarithm family: LOG2 as ten rounded squarings of the normalised raw, its integer part and its value on powers
of two, and the logarithms scaled or divided from it (47_log R225 to R229). -/

namespace Sys2Proof.Machine

/-! ## The normalised raw (R225) -/

/-- The two directions of the normalisation, told apart by the floor of the exact logarithm. -/
theorem normalise_cases {v : Int} (h : 0 < v) (h' : v < 2147483648) :
    (∃ k : Nat, 1024 * 2 ^ k ≤ v ∧ v < 2048 * 2 ^ k ∧ normalise v = (v / 2 ^ k, (k : Int))) ∨
    ∃ k : Nat, 0 < k ∧ 1024 ≤ v * 2 ^ k ∧ v * 2 ^ k < 2048 ∧ normalise v = (v * 2 ^ k, -(k : Int)) := by
  obtain ⟨hlow, hhigh⟩ := two_pow_log2_le h
  have hbits := log2_toNat_le h h'
  generalize Nat.log2 v.toNat = l at *
  obtain hl | hl := le_or_gt 10 l
  · obtain ⟨k, rfl⟩ := Nat.exists_eq_add_of_le hl
    have hlow' : 1024 * 2 ^ k ≤ v := by rwa [pow_add] at hlow
    have hhigh' : v < 2048 * 2 ^ k := by rwa [add_right_comm, pow_add] at hhigh
    exact .inl ⟨k, hlow', hhigh', normalise_of_ge (by omega) hlow' hhigh'⟩
  · obtain ⟨k, hk⟩ := Nat.exists_eq_add_of_le hl.le
    have hpow : (0 : Int) < 2 ^ k := by positivity
    have hscale : (2 : Int) ^ l * 2 ^ k = 1024 := by rw [← pow_add, ← hk]; rfl
    have hlow' := mul_le_mul_of_nonneg_right hlow hpow.le
    have hhigh' := mul_lt_mul_of_pos_right hhigh hpow
    rw [pow_succ, mul_right_comm, hscale] at hhigh'
    rw [hscale] at hlow'
    exact .inr ⟨k, by omega, hlow', hhigh', normalise_of_le (by omega) hlow' hhigh'⟩

/-- The normalised raw lies in `[1.0, 2.0)`. -/
theorem normalise_range {v : Int} (h : 0 < v) (h' : v < 2147483648) :
    1024 ≤ (normalise v).1 ∧ (normalise v).1 < 2048 := by
  obtain ⟨k, hlow, hhigh, hv⟩ | ⟨k, -, hlow, hhigh, hv⟩ := normalise_cases h h'
  · have hpow : (0 : Int) < 2 ^ k := by positivity
    rw [hv]
    exact ⟨(Int.le_ediv_iff_mul_le hpow).2 hlow, (Int.ediv_lt_iff_lt_mul hpow).2 hhigh⟩
  · rw [hv]
    exact ⟨hlow, hhigh⟩

/-- The raw is shifted by the exponent, right when that is not negative. -/
theorem normalise_mantissa {v : Int} (h : 0 < v) (h' : v < 2147483648) :
    (normalise v).1 =
      if 0 ≤ (normalise v).2 then v / 2 ^ (normalise v).2.toNat else v * 2 ^ (-(normalise v).2).toNat := by
  obtain ⟨k, -, -, hv⟩ | ⟨k, hk, -, -, hv⟩ := normalise_cases h h'
  · rw [hv, if_pos (Int.natCast_nonneg k), Int.toNat_natCast]
  · rw [hv, if_neg (by omega), neg_neg, Int.toNat_natCast]

/-- A power of two normalises to 1.0. -/
theorem normalise_two_pow {k : Nat} (hk : k ≤ 30) : normalise (2 ^ k) = (1024, (k : Int) - 10) := by
  obtain hl | hl := le_total 10 k
  · obtain ⟨j, rfl⟩ := Nat.exists_eq_add_of_le hl
    have hpow : (0 : Int) < 2 ^ j := by positivity
    have hscale : (2 : Int) ^ (10 + j) = 1024 * 2 ^ j := pow_add 2 10 j
    rw [normalise_of_ge (k := j) (by omega) hscale.ge (by omega), hscale, Int.mul_ediv_cancel _ hpow.ne']
    exact Prod.ext rfl (by omega)
  · obtain ⟨j, hj⟩ := Nat.exists_eq_add_of_le hl
    have hscale : (2 : Int) ^ k * 2 ^ j = 1024 := by rw [← pow_add, ← hj]; rfl
    rw [normalise_of_le (k := j) (by omega) hscale.ge (by omega), hscale]
    exact Prod.ext rfl (by omega)

/-! ## The bits by rounded squarings (R225) -/

/-- One step of the extraction: the rounded square, halved when it is 2.0 or more. -/
def squareStep (x : Int) : Int := if 2048 ≤ roundedProduct x x then roundedProduct x x / 2 else roundedProduct x x

/-- The squaring at least doubles the distance from 1.0, and does not reach 4.0. -/
theorem roundedProduct_self_range {x : Int} (h : 1024 ≤ x ∧ x < 2048) :
    2 * (x - 1024) ≤ roundedProduct x x - 1024 ∧ roundedProduct x x < 4096 := by
  obtain ⟨hlow, hhigh⟩ := roundedProduct_nearest x x
  constructor <;> nlinarith

theorem squareStep_range {x : Int} (h : 1024 ≤ x ∧ x < 2048) : 1024 ≤ squareStep x ∧ squareStep x < 2048 := by
  obtain ⟨hlow, hhigh⟩ := roundedProduct_self_range h
  unfold squareStep
  split <;> omega

theorem iterate_squareStep_range {x : Int} (h : 1024 ≤ x ∧ x < 2048) (j : Nat) :
    1024 ≤ squareStep^[j] x ∧ squareStep^[j] x < 2048 := by
  induction j with
  | zero => exact h
  | succ j ih =>
    rw [Function.iterate_succ_apply']
    exact squareStep_range ih

theorem extractBits_succ {x : Int} (h : 1024 ≤ x ∧ x < 2048) (n : Nat) (f : Int) :
    extractBits (n + 1) x f =
      extractBits n (squareStep x) (2 * f + if 2048 ≤ roundedProduct x x then 1 else 0) := by
  obtain ⟨hlow, hhigh⟩ := roundedProduct_self_range h
  have hsquare : fxmul x x = roundedProduct x x := by
    rw [fxmul_eq, ← roundedProduct, wrap32_of_range (by omega) (by omega)]
  rw [extractBits, hsquare, squareStep, asr_eq, pow_one]
  split
  case isTrue => rfl
  case isFalse => rw [add_zero]

/-- The step of index `j` gives the bit of weight `2 ^ (n - 1 - j)`. -/
theorem extractBits_eq_sum {x : Int} (h : 1024 ≤ x ∧ x < 2048) (n : Nat) (f : Int) :
    extractBits n x f = 2 ^ n * f + ∑ j ∈ Finset.range n,
      if 2048 ≤ roundedProduct (squareStep^[j] x) (squareStep^[j] x) then 2 ^ (n - 1 - j) else 0 := by
  induction n generalizing x f with
  | zero => simp [extractBits]
  | succ n ih =>
    have hweight : ∀ j, n - 1 - j = n - (j + 1) := fun j => by omega
    rw [extractBits_succ h, ih (squareStep_range h), Finset.sum_range_succ']
    simp only [Function.iterate_succ_apply, Function.iterate_zero_apply, hweight, Nat.add_sub_cancel, Nat.sub_zero]
    by_cases hbit : 2048 ≤ roundedProduct x x
    · rw [if_pos hbit, if_pos hbit]
      ring
    · rw [if_neg hbit, if_neg hbit]
      ring

/-- `n` steps find a bit as soon as `x` is at least `1.0 + 2 ^ -n`: without one, the distance from 1.0 doubles each time
and reaches 1.0. -/
theorem lt_extractBits {n : Nat} {x : Int} (h : 1024 ≤ x ∧ x < 2048) (hfar : 1024 ≤ (x - 1024) * 2 ^ n) (f : Int) :
    2 ^ n * f < extractBits n x f := by
  induction n generalizing x f with
  | zero => omega
  | succ n ih =>
    have hpow : (0 : Int) < 2 ^ n := by positivity
    have hstep := squareStep_range h
    rw [extractBits_succ h, pow_succ]
    by_cases hbit : 2048 ≤ roundedProduct x x
    · obtain ⟨hlow, -⟩ := extractBits_range n (squareStep x) (2 * f + 1)
      rw [if_pos hbit]
      linarith
    · have hdouble := mul_le_mul_of_nonneg_right (roundedProduct_self_range h).1 hpow.le
      have hsquare : squareStep x = roundedProduct x x := if_neg hbit
      have hbits := ih hstep (by rw [hsquare]; rw [pow_succ] at hfar; linarith) (2 * f)
      rw [if_neg hbit, add_zero]
      linarith

/-! ## LOG2 (R225, R226) -/

/-- Settles O33: the squarings start from the normalised raw, and their bits sum to the fraction. -/
theorem log2ExtractsBits : Obligations.Log2ExtractsBits := by
  intro s rd rs1 v e
  refine ⟨decode_encode (i := .log2 rd rs1) rfl, fun h => faults_of_conclude rfl (log2Raw_error h), fun h => ?_⟩
  have hrange := (toInt_range (s.readReg rs1)).2
  have he : (normalise v).2 = e := normalise_exponent h hrange
  have hx := normalise_range h hrange
  refine ⟨fun j => squareStep^[j] (normalise v).1, ?_, fun j _ => iterate_squareStep_range hx j,
    fun j _ => Function.iterate_succ_apply' squareStep j _, ?_⟩
  · rw [← he]
    exact normalise_mantissa h hrange
  · have hbits := extractBits_eq_sum hx 10 0
    rw [mul_zero, zero_add] at hbits
    exact completes_of_conclude rfl (by rw [log2Raw_ok h hrange, he, hbits])

/-- Settles O34: the bits stay below 1.0, and are all 0 for a power of two. -/
theorem log2IntegerPartIsFloor : Obligations.Log2IntegerPartIsFloor := by
  intro s rd rs1 v h
  have hrange := (toInt_range (s.readReg rs1)).2
  have he : (normalise v).2 = (Nat.log2 v.toNat : Int) - 10 := normalise_exponent h hrange
  have hrange' := normalise_exponent_range h hrange
  have hbits := extractBits_range 10 (normalise v).1 0
  refine ⟨1024 * (normalise v).2 + extractBits 10 (normalise v).1 0,
    completes_of_conclude rfl (log2Raw_ok h hrange), by omega, by omega, by omega, fun k hk => ?_⟩
  have hk' : k < 31 := (pow_lt_pow_iff_right₀ (one_lt_two (α := Int))).1 (hk ▸ hrange)
  have hone : extractBits 10 1024 0 = 0 := rfl
  rw [hk, normalise_two_pow (by omega), hone, add_zero]

/-- Only 1.0 has the logarithm 0: from the next raw on ten steps find a bit. -/
theorem log2Raw_ne_zero {v l : Int} (h : 0 < v) (h' : v < 2147483648) (hone : v ≠ 1024) (hl : log2Raw v = .ok l) :
    l ≠ 0 := by
  obtain rfl : 1024 * (normalise v).2 + extractBits 10 (normalise v).1 0 = l :=
    Except.ok.inj ((log2Raw_ok h h').symm.trans hl)
  have hbits := extractBits_range 10 (normalise v).1 0
  have hx := normalise_range h h'
  by_cases he : (normalise v).2 = 0
  · have hmantissa : (normalise v).1 = v := by simp [normalise_mantissa h h', he]
    have hpos := lt_extractBits (n := 10) hx (by omega) 0
    omega
  · omega

/-! ## LOG and LOG10 (R227, R228) -/

theorem completes_of_fxmul {i : Instr} {s : State} {r : Except Cause Int} {a b : Int}
    (h : exec i s = s.conclude i.rd r) (hr : r = .ok (fxmul a b)) : Completes i s (ofScalar (roundedProduct a b)) :=
  ofScalar_fxmul a b ▸ completes_of_conclude h hr

theorem logRaw_error {v : Int} (h : v ≤ 0) : logRaw v = .error .domainLog := by rw [logRaw, log2Raw_error h]

theorem logRaw_ok {v l : Int} (h : log2Raw v = .ok l) : logRaw v = .ok (fxmul l 710) := by rw [logRaw, h]; rfl

theorem log10Raw_error {v : Int} (h : v ≤ 0) : log10Raw v = .error .domainLog := by rw [log10Raw, log2Raw_error h]

theorem log10Raw_ok {v l : Int} (h : log2Raw v = .ok l) : log10Raw v = .ok (fxmul l 308) := by rw [log10Raw, h]; rfl

/-- Settles O35: both fault where LOG2 does, and scale its result by their ROM entry. -/
theorem logAndLog10ScaleLog2 : Obligations.LogAndLog10ScaleLog2 := by
  intro s rd re rs1 v
  refine ⟨decode_encode (i := .log rd rs1) rfl, decode_encode (i := .log10 rd rs1) rfl, fun h => ?_, fun h => ?_⟩
  · exact ⟨faults_of_conclude rfl (logRaw_error h), faults_of_conclude rfl (log10Raw_error h)⟩
  · obtain ⟨l, hl, hlow, hhigh⟩ := log2Raw_range h (toInt_range _).2
    exact ⟨l, completes_of_conclude rfl hl, hlow, hhigh, completes_of_fxmul rfl (logRaw_ok hl),
      completes_of_fxmul rfl (log10Raw_ok hl)⟩

/-! ## LOGB (R229) -/

theorem logbRaw_error {v : Int} (h : v ≤ 0) (b : Int) : logbRaw v b = .error .domainLog := by
  rw [logbRaw, log2Raw_error h]

section Logb

variable {v b lv : Int} (hlv : log2Raw v = .ok lv)

include hlv

/-- With the value's logarithm at hand, LOGB is a choice by the base. -/
theorem logbRaw_of_ok :
    logbRaw v b =
      if b = 2048 then .ok lv else if b = 2784 then .ok (fxmul lv 710) else if b = 10240 then .ok (fxmul lv 308)
      else (log2Raw b).bind (fxdiv lv) := by
  rw [logbRaw, hlv]
  cases log2Raw b <;> rfl

theorem logbRaw_two (h : b = 2048) : logbRaw v b = .ok lv := by rw [logbRaw_of_ok hlv, if_pos h]

theorem logbRaw_romE (h : b = 2784) : logbRaw v b = .ok (fxmul lv 710) := by
  rw [logbRaw_of_ok hlv, if_neg (by omega), if_pos h]

theorem logbRaw_ten (h : b = 10240) : logbRaw v b = .ok (fxmul lv 308) := by
  rw [logbRaw_of_ok hlv, if_neg (by omega), if_neg (by omega), if_pos h]

theorem logbRaw_other (h2 : b ≠ 2048) (he : b ≠ 2784) (h10 : b ≠ 10240) :
    logbRaw v b = (log2Raw b).bind (fxdiv lv) := by
  rw [logbRaw_of_ok hlv, if_neg h2, if_neg he, if_neg h10]

theorem logbRaw_of_nonpos (h : b ≤ 0) : logbRaw v b = .error .domainLog := by
  rw [logbRaw_other hlv (by omega) (by omega) (by omega), log2Raw_error h, Except.bind]

theorem logbRaw_one (h : b = 1024) : logbRaw v b = .error .divideByZero := by
  have hzero : log2Raw b = .ok 0 := h ▸ rfl
  rw [logbRaw_other hlv (by omega) (by omega) (by omega), hzero, Except.bind, fxdiv_zero]

end Logb

/-- Settles O36: the value's logarithm first, then the choice by the base, whose own logarithm is 0 for 1.0 only. -/
theorem logbByBase : Obligations.LogbByBase := by
  intro s rd re rf rs1 rs2 v b
  have hvalue : 0 < v → ∃ lv, log2Raw v = .ok lv ∧ -10240 ≤ lv ∧ lv ≤ 21503 := fun h =>
    log2Raw_range h (toInt_range _).2
  refine ⟨decode_encode (i := .logb rd rs1 rs2) rfl, fun hv => ?_, fun hv hb => ?_, fun hv hb => ?_,
    fun hv hb hone => ?_⟩
  · exact faults_of_conclude rfl (logbRaw_error hv b)
  · obtain ⟨lv, hlv, -⟩ := hvalue hv
    exact faults_of_conclude rfl (logbRaw_of_nonpos hlv hb)
  · obtain ⟨lv, hlv, -⟩ := hvalue hv
    exact faults_of_conclude rfl (logbRaw_one hlv hb)
  · obtain ⟨lv, hlv, hlow, hhigh⟩ := hvalue hv
    have hrange := (toInt_range (s.readReg rs2)).2
    obtain ⟨lb, hlb, hlow', hhigh'⟩ := log2Raw_range hb hrange
    have hne := log2Raw_ne_zero hb hrange hone hlb
    refine ⟨lv, lb, completes_of_conclude rfl hlv, hlow, hhigh, completes_of_conclude rfl hlb,
      hlow', hhigh', hne, ?_⟩
    split_ifs with h2 he h10
    · exact completes_of_conclude rfl (logbRaw_two hlv h2)
    · exact completes_of_fxmul rfl (logbRaw_romE hlv he)
    · exact completes_of_fxmul rfl (logbRaw_ten hlv h10)
    · have hquotient : logbRaw v b = fxdiv lv lb := by rw [logbRaw_other hlv h2 he h10, hlb, Except.bind]
      exact completes_of_fxdiv (congrArg (s.conclude rd) hquotient) hne

end Sys2Proof.Machine
end

section
/-! The exceptions family: what ends a command in two states that agree on its sources, the causes each function can
raise, and a command's end however long the host polls (60_exceptions R241, 70_reset_and_hazards R277 to R279). -/

namespace Sys2Proof.Machine

/-! ## The end of a command, read back from its meaning (R90, R242) -/

/-- A completion shows its result, unless the destination is x0, where every value is discarded alike (R31). -/
theorem completed_finish_iff {s : State} {rd : RegIdx} {v w : Word} :
    Completed s (s.finish rd v) rd w ↔ rd = 0#4 ∨ v = w := by
  refine ⟨fun h => or_iff_not_imp_left.2 fun hrd => ?_, ?_⟩
  · simpa [readReg_finish, hrd] using h.regs rd
  · rintro (rfl | rfl)
    · exact { completed_finish s 0#4 v with regs := fun r => by simp [readReg_finish] }
    · exact completed_finish s rd v

section Ends

variable {i : Instr} {s : State}

theorem completes_iff_of_finish {v w : Word} (h : exec i s = .next (s.finish i.rd v)) :
    Completes i s w ↔ i.rd = 0#4 ∨ v = w := by
  rw [← completed_finish_iff (s := s)]
  simp [Completes, h]

theorem not_faults_of_finish {v : Word} {c : Cause} (h : exec i s = .next (s.finish i.rd v)) : ¬ Faults i s c := by
  rintro ⟨t, ht, hfault⟩
  cases h.symm.trans ht
  simpa using hfault.run

theorem not_completes_of_raise {c : Cause} {v : Word} (h : exec i s = .next (s.raise c)) : ¬ Completes i s v := by
  rintro ⟨t, ht, hdone⟩
  cases h.symm.trans ht
  simpa using hdone.run

/-- A raised cause shows in CAUSE, so the fault can be claimed with no other. -/
theorem faults_iff_of_raise {c d : Cause} (h : exec i s = .next (s.raise c)) : Faults i s d ↔ c = d := by
  refine ⟨?_, fun hcd => hcd ▸ faults_of_raise h⟩
  rintro ⟨t, ht, hfault⟩
  cases h.symm.trans ht
  simpa using hfault.cause

/-- A command with a function that may raise faults only with the cause its function raises. -/
theorem error_of_faults {r : Except Cause Int} {c : Cause} (h : exec i s = s.conclude i.rd r) (hf : Faults i s c) :
    r = .error c := by
  cases r with
  | ok v => exact absurd hf (not_faults_of_finish h)
  | error d => rw [(faults_iff_of_raise h).1 hf]

/-- No command both completes and faults. -/
theorem not_faults_of_completes {v : Word} {c : Cause} (h : Completes i s v) : ¬ Faults i s c := by
  obtain ⟨w, hw⟩ | ⟨d, hd⟩ := exec_ends i s
  · exact not_faults_of_finish hw
  · exact absurd h (not_completes_of_raise hd)

/-- A command faults with one cause. -/
theorem faults_unique {c d : Cause} (h : Faults i s c) (h' : Faults i s d) : c = d := by
  obtain ⟨w, hw⟩ | ⟨e, he⟩ := exec_ends i s
  · exact absurd h (not_faults_of_finish hw)
  · exact ((faults_iff_of_raise he).1 h).symm.trans ((faults_iff_of_raise he).1 h')

end Ends

/-! ## The causes of each function (R241) -/

/-- Whatever `r` raises is one of the causes `l`. -/
def RaisesOnly (l : List Cause) (r : Except Cause Int) : Prop := ∀ c, r = .error c → c ∈ l

theorem raisesOnly_ok (l : List Cause) (v : Int) : RaisesOnly l (.ok v) := fun _ h => nomatch h

theorem raisesOnly_error {l : List Cause} {c : Cause} (h : c ∈ l) : RaisesOnly l (.error c) := by
  rintro _ ⟨⟩
  exact h

theorem raisesOnly_ite {l : List Cause} {p : Prop} [Decidable p] {r r' : Except Cause Int} (h : RaisesOnly l r)
    (h' : RaisesOnly l r') : RaisesOnly l (if p then r else r') := by
  split
  · exact h
  · exact h'

/-- A command whose function raises listed causes only faults with a listed cause. -/
theorem mem_listedCauses_of_faults {i : Instr} {s : State} {r : Except Cause Int} {c : Cause} (hf : Faults i s c)
    (h : exec i s = s.conclude i.rd r) (hr : RaisesOnly (listedCauses i) r) : c ∈ listedCauses i :=
  hr c (error_of_faults h hf)

section Causes

variable {l : List Cause}

theorem raisesOnly_fxdiv (h : .divideByZero ∈ l) (a b : Int) : RaisesOnly l (fxdiv a b) :=
  raisesOnly_ite (raisesOnly_error h) (raisesOnly_ok l _)

theorem raisesOnly_fxmod (h : .divideByZero ∈ l) (a b : Int) : RaisesOnly l (fxmod a b) :=
  raisesOnly_ite (raisesOnly_error h) (raisesOnly_ok l _)

theorem raisesOnly_mix (hsign : .invalidArgument ∈ l) (hzero : .divideByZero ∈ l) (i n d : Int) :
    RaisesOnly l (mix i n d) := by
  refine raisesOnly_ite (raisesOnly_error hsign) ?_
  split
  next c hc => exact raisesOnly_error (raisesOnly_fxdiv hzero n d c hc)
  next => exact raisesOnly_ite (raisesOnly_ok l _) (raisesOnly_ok l _)

theorem raisesOnly_sqrtRaw (h : .domainSqrt ∈ l) (a : Int) : RaisesOnly l (sqrtRaw a) :=
  raisesOnly_ite (raisesOnly_error h) (raisesOnly_ite (raisesOnly_ok l _) (raisesOnly_ok l _))

theorem raisesOnly_atan2Raw (h : .domainAtan2 ∈ l) (y x : Int) : RaisesOnly l (atan2Raw y x) :=
  raisesOnly_ite (raisesOnly_error h) (raisesOnly_ok l _)

theorem raisesOnly_log2Raw (h : .domainLog ∈ l) (v : Int) : RaisesOnly l (log2Raw v) :=
  raisesOnly_ite (raisesOnly_error h) (raisesOnly_ok l _)

theorem raisesOnly_logRaw (h : .domainLog ∈ l) (v : Int) : RaisesOnly l (logRaw v) := by
  unfold logRaw
  split
  next c hc => exact raisesOnly_error (raisesOnly_log2Raw h v c hc)
  next => exact raisesOnly_ok l _

theorem raisesOnly_log10Raw (h : .domainLog ∈ l) (v : Int) : RaisesOnly l (log10Raw v) := by
  unfold log10Raw
  split
  next c hc => exact raisesOnly_error (raisesOnly_log2Raw h v c hc)
  next => exact raisesOnly_ok l _

/-- With the value's logarithm at hand, only the base's logarithm and the quotient are left to raise (R229). -/
theorem raisesOnly_logbRaw (hlog : .domainLog ∈ l) (hzero : .divideByZero ∈ l) (v b : Int) :
    RaisesOnly l (logbRaw v b) := by
  unfold logbRaw
  split
  next c hc => exact raisesOnly_error (raisesOnly_log2Raw hlog v c hc)
  next lv _ =>
    refine raisesOnly_ite (raisesOnly_ok l _) (raisesOnly_ite (raisesOnly_ok l _)
      (raisesOnly_ite (raisesOnly_ok l _) ?_))
    split
    next c hc => exact raisesOnly_error (raisesOnly_log2Raw hlog b c hc)
    next lb _ => exact raisesOnly_fxdiv hzero lv lb

theorem raisesOnly_powInt (h : .divideByZero ∈ l) (b n : Int) : RaisesOnly l (powInt b n) := by
  refine raisesOnly_ite ?_ (raisesOnly_ok l _)
  split
  next c hc => exact raisesOnly_error (raisesOnly_fxdiv h _ b c hc)
  next => exact raisesOnly_ok l _

theorem raisesOnly_powFrac (h : .domainLog ∈ l) (b x : Int) : RaisesOnly l (powFrac b x) := by
  unfold powFrac
  split
  next c hc => exact raisesOnly_error (raisesOnly_log2Raw h b c hc)
  next => exact raisesOnly_ok l _

theorem raisesOnly_powRaw (hzero : .divideByZero ∈ l) (hlog : .domainLog ∈ l) (b x : Int) :
    RaisesOnly l (powRaw b x) :=
  raisesOnly_ite (raisesOnly_ok l _) (raisesOnly_ite (raisesOnly_powInt hzero b _) (raisesOnly_powFrac hlog b x))

end Causes

/-- ASIN and ACOS fault with DOMAIN_SQRT only: from zero on the root is there, and the vectoring never meets two
zeros. -/
theorem domainSqrt_of_faults_asin_acos {s : State} {rd rs1 : RegIdx} {c : Cause}
    (hf : Faults (.asin rd rs1) s c ∨ Faults (.acos rd rs1) s c) : c = .domainSqrt := by
  rcases lt_or_ge (wrappedProduct (s.scalar rs1)) 0 with hneg | hnonneg
  · obtain ⟨hasin, hacos⟩ := faults_asin_acos (rd := rd) hneg
    exact hf.elim (faults_unique · hasin) (faults_unique · hacos)
  · obtain ⟨r, -, hasin, hacos⟩ := completes_asin_acos (rd := rd) hnonneg
    exact (hf.elim (not_faults_of_completes hasin) (not_faults_of_completes hacos)).elim

/-- Settles O44: by instruction, the causes of its function; CONST's index is in range, ATAN's and EXP's functions
always answer, and the instructions with no such function only finish. -/
theorem onlyListedCauses : Obligations.OnlyListedCauses := by
  intro i s c hwf hf
  cases i with
  | div rd rs1 rs2 | ratio rd rs1 rs2 | tan rd rs1 =>
    exact mem_listedCauses_of_faults hf rfl (raisesOnly_fxdiv (by simp [listedCauses]) _ _)
  | mod rd rs1 rs2 => exact mem_listedCauses_of_faults hf rfl (raisesOnly_fxmod (by simp [listedCauses]) _ _)
  | mix rd rs1 rs2 rs3 =>
    exact mem_listedCauses_of_faults hf rfl
      (raisesOnly_mix (by simp [listedCauses]) (by simp [listedCauses]) _ _ _)
  | const rd k =>
    have hk : k.toNat < 4 := by simpa [Instr.wf] using hwf
    exact mem_listedCauses_of_faults hf rfl (namedConst_ok hk ▸ raisesOnly_ok _ _)
  | sqrt rd rs1 => exact mem_listedCauses_of_faults hf rfl (raisesOnly_sqrtRaw (by simp [listedCauses]) _)
  | atan2 rd rs1 rs2 =>
    exact mem_listedCauses_of_faults hf rfl (raisesOnly_atan2Raw (by simp [listedCauses]) _ _)
  | asin rd rs1 => simp [listedCauses, domainSqrt_of_faults_asin_acos (.inl hf)]
  | acos rd rs1 => simp [listedCauses, domainSqrt_of_faults_asin_acos (.inr hf)]
  | atan rd rs1 =>
    have hok : atanRaw (s.scalar rs1) = .ok (cordicVec (s.scalar rs1) 1024) := atan2Raw_ok (by simp)
    exact mem_listedCauses_of_faults hf rfl (hok ▸ raisesOnly_ok _ _)
  | exp rd rs1 =>
    obtain ⟨v, hv⟩ := powRaw_romE_ok (s.scalar rs1)
    exact mem_listedCauses_of_faults hf rfl (hv ▸ raisesOnly_ok _ _)
  | pow rd rs1 rs2 =>
    exact mem_listedCauses_of_faults hf rfl
      (raisesOnly_powRaw (by simp [listedCauses]) (by simp [listedCauses]) _ _)
  | log2 rd rs1 => exact mem_listedCauses_of_faults hf rfl (raisesOnly_log2Raw (by simp [listedCauses]) _)
  | log rd rs1 => exact mem_listedCauses_of_faults hf rfl (raisesOnly_logRaw (by simp [listedCauses]) _)
  | log10 rd rs1 => exact mem_listedCauses_of_faults hf rfl (raisesOnly_log10Raw (by simp [listedCauses]) _)
  | logb rd rs1 rs2 =>
    exact mem_listedCauses_of_faults hf rfl
      (raisesOnly_logbRaw (by simp [listedCauses]) (by simp [listedCauses]) _ _)
  | _ => exact absurd hf (not_faults_of_finish rfl)

/-! ## Two states that agree on the sources (R279) -/

/-- `i` ends in `s` and in `s'` with one result, or with one cause. -/
inductive SameEnd (i : Instr) (s s' : State) : Prop where
  /-- Both finish with `v`. -/
  | finish (v : Word) (h : exec i s = .next (s.finish i.rd v)) (h' : exec i s' = .next (s'.finish i.rd v))
  /-- Both raise `c`. -/
  | raise (c : Cause) (h : exec i s = .next (s.raise c)) (h' : exec i s' = .next (s'.raise c))

theorem sameEnd_of_finish {i : Instr} {s s' : State} {v v' : Word} (h : exec i s = .next (s.finish i.rd v))
    (h' : exec i s' = .next (s'.finish i.rd v')) (hv : v' = v) : SameEnd i s s' := .finish v h (hv ▸ h')

theorem sameEnd_of_conclude {i : Instr} {s s' : State} {r r' : Except Cause Int} (h : exec i s = s.conclude i.rd r)
    (h' : exec i s' = s'.conclude i.rd r') (hr : r' = r) : SameEnd i s s' := by
  subst hr
  cases r' with
  | ok v => exact .finish _ h h'
  | error c => exact .raise c h h'

/-- A command that reads the same sources ends the same: its value, or what its function gives, is built of them. -/
theorem sameEnd_of_sources {i : Instr} {s s' : State} (h : ∀ r ∈ i.sources, s'.readReg r = s.readReg r) :
    SameEnd i s s' := by
  cases i with
  | const rd k => exact sameEnd_of_conclude rfl rfl rfl
  | div rd rs1 rs2 | mod rd rs1 rs2 | mix rd rs1 rs2 rs3 | ratio rd rs1 rs2 | sqrt rd rs1 | tan rd rs1
  | atan2 rd rs1 rs2 | asin rd rs1 | acos rd rs1 | atan rd rs1 | exp rd rs1 | pow rd rs1 rs2 | log2 rd rs1
  | log rd rs1 | log10 rd rs1 | logb rd rs1 rs2 =>
    simp only [Instr.sources, List.forall_mem_cons] at h
    exact sameEnd_of_conclude rfl rfl (by simp only [State.scalar, State.integer, h])
  | _ =>
    simp only [Instr.sources, List.forall_mem_cons] at h
    exact sameEnd_of_finish rfl rfl
      (by simp only [State.scalar, State.integer, State.shiftCount, State.highPrecision, h])

/-- Settles O45: the common end decides both clauses in the two states alike. -/
theorem resultDependsOnSourcesOnly : Obligations.ResultDependsOnSourcesOnly := by
  intro i s s' hsources
  obtain ⟨v, h, h'⟩ | ⟨c, h, h'⟩ := sameEnd_of_sources hsources
  · exact ⟨fun _ hw => (completes_iff_of_finish h').2 ((completes_iff_of_finish h).1 hw),
      fun _ hf => absurd hf (not_faults_of_finish h)⟩
  · exact ⟨fun _ hw => absurd hw (not_completes_of_raise h),
      fun _ hf => (faults_iff_of_raise h').2 ((faults_iff_of_raise h).1 hf)⟩

/-! ## Every step answers (R278) -/

theorem exec_answers (i : Instr) (s : State) : ∃ t, exec i s = .next t := by
  obtain ⟨v, h⟩ | ⟨c, h⟩ := exec_ends i s
  · exact ⟨_, h⟩
  · exact ⟨_, h⟩

theorem unitTurn_answers (s : State) : ∃ t, unitTurn s = .next t := by
  by_cases hb : s.run = .busy
  · obtain ⟨i, -, h⟩ | ⟨_, -, h⟩ := unitTurn_busy hb
    · exact h ▸ exec_answers i s
    · exact ⟨_, h⟩
  · exact ⟨s, unitTurn_waits hb⟩

/-- Settles O48: the unit's turn, given by the list or for want of one, and the host's turn each answer. -/
theorem everyStepAnswers : Obligations.EveryStepAnswers := by
  intro s
  cases hs : s.turns with
  | nil => exact step_no_turns hs ▸ unitTurn_answers s
  | cons turn rest =>
    cases turn with
    | unit => exact step_unit hs ▸ unitTurn_answers { s with turns := rest }
    | host tr => exact ⟨_, step_host hs⟩

/-! ## Polling STATUS (R277) -/

/-- A completion writes what it writes whatever the host was told. -/
theorem finish_with_replies (s : State) (rs : List Reply) (rd : RegIdx) (v : Word) :
    State.finish { s with replies := rs } rd v = { s.finish rd v with replies := rs } := by
  unfold State.finish State.writeReg
  split <;> rfl

/-- A command ends the same whatever the host was told: replies are in no source register. -/
theorem exec_with_replies {i : Instr} {s t : State} (h : exec i s = .next t) (rs : List Reply) :
    exec i { s with replies := rs } = .next { t with replies := rs } := by
  obtain ⟨v, hs, hs'⟩ | ⟨c, hs, hs'⟩ :=
    sameEnd_of_sources (i := i) (s := s) (s' := { s with replies := rs }) fun r _ => readReg_congr rfl r
  · cases hs.symm.trans h
    rw [hs', finish_with_replies]
  · cases hs.symm.trans h
    exact hs'

theorem unitTurn_with_replies {s t : State} (hb : s.run = .busy) (h : unitTurn s = .next t) (rs : List Reply) :
    unitTurn { s with replies := rs } = .next { t with replies := rs } := by
  obtain ⟨i, hd, hi⟩ | ⟨e, hd, he⟩ := unitTurn_busy hb
  · exact (unitTurn_decoded (s := { s with replies := rs }) hb hd).trans (exec_with_replies (hi.symm.trans h) rs)
  · cases he.symm.trans h
    simp [unitTurn, hb, complete, hd, State.raise]

/-- Polls before other turns take their turns off the list, add their replies, and change nothing else (R47). -/
theorem core_run_polls (n k : Nat) {s : State} {rest : List Turn} {a : BitVec 8}
    (hs : s.turns = List.replicate n (.host (.readCsr a)) ++ rest) :
    ∃ rs, core.run (n + k) s = core.run k { s with turns := rest, replies := rs } := by
  induction n generalizing s with
  | zero =>
    obtain rfl : s.turns = rest := hs
    exact ⟨s.replies, by rw [Nat.zero_add]⟩
  | succ n ih =>
    have hstep := step_host_eq hs (hostTurn_readCsr _ a)
    rw [Nat.add_right_comm, core_run_succ hstep]
    exact ih rfl

/-- Settles O58: the polls leave the state at the unit's turn but for the replies, which the command's end does not
read. -/
theorem pollingDoesNotChangeResult : Obligations.PollingDoesNotChangeResult := by
  intro s u n rest hb hs hu
  obtain ⟨rs, hpolls⟩ := core_run_polls n 1 hs
  have hunit : unitTurn { s with turns := rest } = .next u :=
    (step_unit (s := { s with turns := .unit :: rest }) rfl).symm.trans hu
  have hend : step { s with turns := .unit :: rest, replies := rs } = .next { u with replies := rs } :=
    (step_unit rfl).trans (unitTurn_with_replies (s := { s with turns := rest }) hb hunit rs)
  exact ⟨_, hpolls.trans (core_run_succ hend 0), rfl, rfl, rfl, rfl, rfl⟩

end Sys2Proof.Machine
end
